-- ==== Sys2Proof/Word.lean ====
section
/-! DEFINITION. The CDRA's word types (00_scope.md R10, 10_state.md R21): every register is 32 bits, every value unsigned. -/

namespace Sys2Proof

/-- A 32-bit register, handle, callback address or command word (10_state.md R21, R26, R37). -/
abbrev Word := BitVec 32

/-- An 8-bit field: a channel, a status code, a slot number, one byte lane (20_memory.md R51). -/
abbrev Byte := BitVec 8

end Sys2Proof
end

