-- ==== Sys2Proof/Config.lean ====
section
/-! DEFINITION. What the spec fixes once (00_scope.md R8) and what it leaves to the platform (92_eei_decisions.md D3, D6, D28). -/

namespace Sys2Proof

/-- `N_TX_SLOTS` (00_scope.md R8). -/
def Config.nTxSlots : Nat := 4

/-- `N_RX_SLOTS` (00_scope.md R8). -/
def Config.nRxSlots : Nat := 4

/-- `N_SLOTS` (00_scope.md R8). -/
def Config.nSlots : Nat := Config.nTxSlots + Config.nRxSlots

/-- `CHAN_INVALID` (00_scope.md R8, D4). -/
def Config.chanInvalid : Byte := 0xFF#8

/-- `SCAN_ORDER`: TX0 to TX3, then RX0 to RX3 (10_state.md R34, log entry 13). -/
def Config.scanOrder : Vector (Fin 8) 8 := #v[0, 1, 2, 3, 4, 5, 6, 7]

/-- The three values of the model argument `ABORT_COMPLETION` (60_exceptions.md R187). -/
inductive AbortCompletion where
  /-- An abort raises no completion. -/
  | never
  /-- An abort of an armed channel raises its completion. -/
  | always
  /-- A draw under no law decides at each abort of an armed channel. -/
  | either
  deriving DecidableEq, Repr

/-- The model arguments the spec leaves to the platform (00_scope.md R8). They are a parameter of the
step relation (10_state.md R20); the model carries them in `State.params`, which no step writes.
DESIGN CHOICE (safe), log entry 4. -/
structure Params where
  /-- `N_DMA_CH`, 1 to 32 (D3). -/
  nDmaCh : Nat
  /-- The upper 24 bits of `BLOCK_BASE`, which is 256-byte aligned (D6). -/
  blockPage : BitVec 24
  /-- `IRQ_LINE`: which host interrupt input the line drives (D6). -/
  irqLine : Nat
  /-- `ABORT_COMPLETION` (D28). -/
  abortCompletion : AbortCompletion
  deriving DecidableEq, Repr

/-- `BLOCK_BASE`: 256-byte aligned by construction (00_scope.md R8). -/
def Params.blockBase (p : Params) : Word := p.blockPage ++ 0x00#8

/-- The arguments at reset: the spec's defaults for `N_DMA_CH` and `ABORT_COMPLETION`; 0 for the two it
leaves OPEN. DESIGN CHOICE (unsafe), log entry 4. -/
def Params.default : Params :=
  { nDmaCh := 16, blockPage := 0, irqLine := 0, abortCompletion := .either }

/-- FREE VALUE: whether the n-th EITHER draw of a `dma_abort` raises the completion ("a draw ... under no
law", 60_exceptions.md R187). No body: nothing can be proved of it. Log entry 5. -/
opaque Config.abortDraw : Nat → Bool

end Sys2Proof
end

