-- ==== Sys2Proof/Machine/State.lean ====
section
/-! DEFINITION. The state of the CDRA (10_state.md R20) and of its environment, as plain data, and the state after
reset (10_state.md R46). -/

namespace Sys2Proof.Machine

/-- The two host contexts (10_state.md R22). -/
inductive Context where
  | main
  | irq
  deriving DecidableEq, Repr

/-- One copy per host context (10_state.md R23). -/
structure Banked (α : Type) where
  main : α
  irq : α
  deriving DecidableEq, Repr

/-- The four banked registers of one context (10_state.md R23). -/
structure Bank where
  argHandle : Word
  argFn : Word
  argCtx : Word
  result : Word
  deriving DecidableEq, Repr

/-- A registry slot (10_state.md R26). -/
structure Slot where
  valid : Bool
  handle : Word
  chan : Byte
  deriving DecidableEq, Repr

/-- The dispatcher phase (10_state.md R33). -/
inductive Phase where
  /-- No dispatch in progress: the main flow runs. -/
  | idle
  /-- About to examine slot `SCAN_ORDER[i]`; `scan 8`: all examined. -/
  | scan (i : Fin 9)
  /-- The callback of slot `SCAN_ORDER[i]` is running. -/
  | inCallback (i : Fin 8)
  deriving DecidableEq, Repr

/-- An instance's direction (10_state.md R37, D47). -/
inductive Dir where
  | tx
  | rx
  deriving DecidableEq, Repr

/-- An instance record: the fields the CDRA uses (10_state.md R37). -/
structure Record where
  dir : Dir
  chan : Byte
  busy : Bool
  cb : Word
  ctx : Word
  deriving DecidableEq, Repr

/-- The instance store: handles with their records, handles strictly rising, 0 not among them (10_state.md R36). -/
abbrev Store := List (Word × Record)

/-- A recorded model fault (60_exceptions.md R161). Recording one does not stop the machine (R180). -/
inductive FaultRecord where
  /-- `F_BUS(addr, size)`: a host access to the window that is not 32 bits wide or not aligned. -/
  | bus (addr : Word) (size : Nat)
  /-- `F_DANGLING_HANDLE(h)`: a record that is not live is read, by the CDRA (R161) or by the host (00_scope.md R11,
  log entry 21). -/
  | danglingHandle (h : Word)
  /-- `F_ORPHAN_SOURCE(c)`: a dispatch ends with `c` pending and enabled and held by no slot. -/
  | orphanSource (c : Nat)
  /-- `F_DMA_CONTRACT(c)`: `dma_arm` of an armed channel. -/
  | dmaContract (c : Nat)
  deriving DecidableEq, Repr

/-- The fields of an instance record, by name (10_state.md R37). -/
inductive RecordField where
  | dir
  | chan
  | busy
  | cb
  | ctx
  deriving DecidableEq, Repr

/-- What an engine operation returns to its caller (30_encoding.md R79). -/
inductive EngineReturn where
  /-- `return` with no value. -/
  | noValue
  /-- `return OK` and `return S.STATUS`: a status code (60_exceptions.md R160). -/
  | status (code : Byte)
  /-- `return ResourceExhausted`: no DMA channel was claimed. -/
  | resourceExhausted
  deriving DecidableEq, Repr

/-- What a host flow can do in one step: window accesses (30_encoding.md R77), DMA actions (60_exceptions.md R186,
R187), creating, reading and destroying instance records (10_state.md R36, 20_memory.md R50, R63), the engine operations
(30_encoding.md R79) with the decisions inside them, computation outside the CDRA. -/
inductive HostAction where
  /-- A bus read of `size` bytes at window offset `off`. DESIGN CHOICE (safe), log entry 6. -/
  | read (off : Byte) (size : Nat)
  /-- A bus write of `size` bytes at window offset `off`. -/
  | write (off : Byte) (size : Nat) (value : Word)
  /-- `dma_arm c`. -/
  | dmaArm (c : Nat)
  /-- `dma_abort c`. -/
  | dmaAbort (c : Nat)
  /-- The host creates record `h` with an immutable direction and channel. -/
  | create (h : Word) (dir : Dir) (chan : Byte)
  /-- The host destroys record `h`. -/
  | destroy (h : Word)
  /-- The host reads field `f` of record `h` (20_memory.md R50, R63). -/
  | readRecord (h : Word) (f : RecordField)
  /-- The host releases DMA channel `c` (30_encoding.md R79): nothing of the CDRA is touched. -/
  | releaseChannel (c : Nat)
  /-- `engine_init h` begins: it expands into its statements (30_encoding.md R79). -/
  | engineInit (h : Word)
  /-- Inside `engine_init` of channel `c`, after REGISTER's result was read: the decision on it. -/
  | initDecides (c : Byte)
  /-- `engine_start h, len` begins. -/
  | engineStart (h : Word) (len : Nat)
  /-- Inside `engine_start h, len`, after BUSY_SET's result was read: the decision on it. -/
  | startDecides (h : Word)
  /-- `engine_abort h` begins. -/
  | engineAbort (h : Word)
  /-- `engine_deinit h` begins. -/
  | engineDeinit (h : Word)
  /-- An engine operation returns. -/
  | giveAnswer (v : EngineReturn)
  /-- `host X <- expr`, `host call X(args)`: nothing of the CDRA is touched. DESIGN CHOICE (safe), log entry 19. -/
  | compute
  deriving DecidableEq, Repr

/-- One host flow: what it does next, what its last read returned, and what its last engine operation returned (`none`:
none has). The MODEL's own fields; DESIGN CHOICE (safe), log entry 2. -/
structure HostFlow where
  todo : List HostAction
  readData : Word
  answer : Option EngineReturn
  deriving DecidableEq, Repr

/-- The agents of 00_scope.md R9, and the platform, which resets (70_reset_and_hazards.md R200). -/
inductive Agent where
  /-- The host flow of a context: Host-main or Host-irq. -/
  | host (ctx : Context)
  /-- The CDRA's own sequencer. -/
  | dispatcher
  /-- DMA channel `c`. -/
  | dma (c : Nat)
  /-- System reset. -/
  | platform
  deriving DecidableEq, Repr

/-- The state: the tuple of 10_state.md R20, its environment, and the model's own fields `params`, `flows`, `sched`,
`draws` (INVENTORY.md, State). -/
structure State where
  /-- The model arguments; no step writes them (log entry 4). -/
  params : Params
  /-- `slot[0..7]` (R26). -/
  slots : Vector Slot 8
  /-- `en[c]` is bit `c` (R30, R39). DESIGN CHOICE (safe), log entry 11. -/
  en : Word
  /-- `pend[c]` is bit `c` (R30, R39). -/
  pend : Word
  /-- `INSTALLED` (R31). -/
  installed : Bool
  /-- The dispatcher phase (R33). -/
  phase : Phase
  /-- `CUR_FN` (R35). -/
  curFn : Word
  /-- `CUR_CTX` (R35). -/
  curCtx : Word
  /-- `CUR_HANDLE` (R35). -/
  curHandle : Word
  /-- `bank[MAIN]`, `bank[IRQ]` (R23). -/
  banks : Banked Bank
  /-- `faults`, a set: no record twice (R45, log entry 12). -/
  faults : List FaultRecord
  /-- The instance store `IS` (R36). -/
  store : Store
  /-- `armed[c]` is bit `c` (R42). -/
  armed : Word
  /-- What the two host flows do next (log entry 2). -/
  flows : Banked HostFlow
  /-- Which agents step next (log entry 1). -/
  sched : List Agent
  /-- How many EITHER draws have been taken (log entry 5). -/
  draws : Nat
  deriving DecidableEq, Repr

/-- Why a step stops with a fault. The spec's own model faults are records in `State.faults`, after which the
machine goes on; these are for host actions to which the spec gives no effect. -/
inductive Fault where
  /-- Raised by `dma_arm c` and `dma_abort c` when there is no channel `c` (`c ≥ N_DMA_CH`, 10_state.md R42). Safe:
  the model stops where the spec says nothing. Log entry 8. -/
  | noSuchChannel (c : Nat)
  /-- Raised by creating a record under handle 0 or a live handle and by destroying a record that is not live: the
  host's own storage contract (10_state.md R36). Safe: the model stops where the spec says nothing. Log entry 9. -/
  | storeContract (h : Word)
  deriving DecidableEq, Repr

/-- Why there is no meaning. -/
inductive Refusal where
  /-- Raised by an arm of `exec` whose instruction has no meaning yet. Safe. No arm raises it now. -/
  | notModelled (mnemonic : String)
  /-- Raised by `exec` in phase `Scan(i)`: no host access, and so no command, exists there (10_state.md R22). `step`
  never calls `exec` in that phase. Safe. Log entry 7. -/
  | noHostContext
  deriving DecidableEq, Repr

/-- An empty slot (10_state.md R26, R27). -/
def Slot.empty : Slot := { valid := false, handle := 0, chan := Config.chanInvalid }

/-- A bank after reset (10_state.md R46). -/
def Bank.reset : Bank := { argHandle := 0, argFn := 0, argCtx := 0, result := 0x0000FF00 }

/-- A host flow with nothing to do. DESIGN CHOICE (unsafe), log entry 2. -/
def HostFlow.reset : HostFlow := { todo := [], readData := 0, answer := none }

/-- The machine right after reset (10_state.md R46, 70_reset_and_hazards.md R200). The values of `params`, `flows`,
`sched` and `draws` are the model's: DESIGN CHOICE (unsafe), log entries 1, 2, 4, 5. -/
def State.reset : State where
  params := Params.default
  slots := Vector.replicate 8 Slot.empty
  en := 0
  pend := 0
  installed := false
  phase := .idle
  curFn := 0
  curCtx := 0
  curHandle := 0
  banks := { main := Bank.reset, irq := Bank.reset }
  faults := []
  store := []
  armed := 0
  flows := { main := HostFlow.reset, irq := HostFlow.reset }
  sched := []
  draws := 0

end Sys2Proof.Machine
end

