-- ==== Sys2Proof/Syntax.lean ====
section
/-! DEFINITION. The twelve commands (30_encoding.md R73, spec/opcode_table.json), one constructor each. -/

namespace Sys2Proof

/-- A command. Only SRC_ENABLE, SRC_DISABLE and SRC_ACK carry the CHAN field: every other command ignores it
(30_encoding.md R74; log entry 14). The other operands are read from the issuing context's bank (R71). -/
inductive Instr where
  /-- NOP, OP 0x00 (41_install_and_sources.md R110). -/
  | nop
  /-- INSTALL, OP 0x01 (41_install_and_sources.md R111). -/
  | install
  /-- REGISTER, OP 0x02 (40_registry.md R91). -/
  | register
  /-- UNREGISTER, OP 0x03 (40_registry.md R97). -/
  | unregister
  /-- QUERY, OP 0x04 (40_registry.md R100). -/
  | query
  /-- SET_CALLBACK, OP 0x05 (42_instance.md R130). -/
  | setCallback
  /-- BUSY_SET, OP 0x06 (42_instance.md R134). -/
  | busySet
  /-- BUSY_CLEAR, OP 0x07 (42_instance.md R138). -/
  | busyClear
  /-- SRC_ENABLE, OP 0x08 (41_install_and_sources.md R113). -/
  | srcEnable (chan : Byte)
  /-- SRC_DISABLE, OP 0x09 (41_install_and_sources.md R114). -/
  | srcDisable (chan : Byte)
  /-- SRC_ACK, OP 0x0A (41_install_and_sources.md R115). -/
  | srcAck (chan : Byte)
  /-- CB_RETURN, OP 0x0B (43_callback_return.md R150). -/
  | cbReturn
  deriving DecidableEq, Repr

end Sys2Proof
end

