-- ==== Sys2Proof/Machine/Ops.lean ====
section
/-! DEFINITION. The named operations every meaning is written over: setters, one per piece of state; the banks, the
slots, the completion sources, the instance store; RESULT and the fault set; entering and leaving interrupt context
(60_exceptions.md R164, R165, R168, 43_callback_return.md R150). -/

namespace Sys2Proof.Machine

/-! ### Banks and contexts -/

/-- `bank[ctx]` (10_state.md R23). -/
def Banked.get {α : Type} (b : Banked α) : Context → α
  | .main => b.main
  | .irq => b.irq

/-- `bank[ctx] <- v`; the other context's copy is kept (10_state.md R23). -/
def Banked.set {α : Type} (b : Banked α) (ctx : Context) (v : α) : Banked α :=
  match ctx with
  | .main => { b with main := v }
  | .irq => { b with irq := v }

/-- The context of a host access, a function of the phase (10_state.md R22). In `Scan(i)` there is none. -/
def Phase.context? : Phase → Option Context
  | .idle => some .main
  | .scan _ => none
  | .inCallback _ => some .irq

/-! ### Setters: each writes one piece of state and keeps the rest -/

def State.withSlots (s : State) (v : Vector Slot 8) : State := { s with slots := v }
def State.withEn (s : State) (v : Word) : State := { s with en := v }
def State.withPend (s : State) (v : Word) : State := { s with pend := v }
def State.withInstalled (s : State) (v : Bool) : State := { s with installed := v }
def State.withPhase (s : State) (v : Phase) : State := { s with phase := v }
/-- The callback latch is written as one (10_state.md R35). -/
def State.withLatch (s : State) (fn ctx handle : Word) : State :=
  { s with curFn := fn, curCtx := ctx, curHandle := handle }
def State.withBank (s : State) (ctx : Context) (v : Bank) : State := { s with banks := s.banks.set ctx v }
def State.withFaults (s : State) (v : List FaultRecord) : State := { s with faults := v }
def State.withStore (s : State) (v : Store) : State := { s with store := v }
def State.withArmed (s : State) (v : Word) : State := { s with armed := v }
def State.withFlow (s : State) (ctx : Context) (v : HostFlow) : State := { s with flows := s.flows.set ctx v }
def State.withSched (s : State) (v : List Agent) : State := { s with sched := v }
def State.withDraws (s : State) (v : Nat) : State := { s with draws := v }

/-! ### Completion sources: one bit per channel (10_state.md R30, R42) -/

/-- Bit `c` of a channel mask becomes `v`; every other bit is kept. -/
def writeBit (m : Word) (c : Nat) (v : Bool) : Word :=
  if v then m ||| (1#32 <<< c) else m &&& ~~~(1#32 <<< c)

/-- `en[c] = 1`. -/
def State.enabled (s : State) (c : Nat) : Bool := s.en.getLsbD c
/-- `pend[c] = 1`. -/
def State.pending (s : State) (c : Nat) : Bool := s.pend.getLsbD c
/-- `armed[c] = 1`. -/
def State.isArmed (s : State) (c : Nat) : Bool := s.armed.getLsbD c

/-- `en[c] <- v` (41_install_and_sources.md R113, R114). -/
def State.setEnabled (s : State) (c : Nat) (v : Bool) : State := s.withEn (writeBit s.en c v)
/-- `pend[c] <- v`: `true` is a completion (60_exceptions.md R186), `false` the acknowledgement (R165). -/
def State.setPending (s : State) (c : Nat) (v : Bool) : State := s.withPend (writeBit s.pend c v)
/-- `armed[c] <- v` (60_exceptions.md R186, R187). -/
def State.setArmed (s : State) (c : Nat) (v : Bool) : State := s.withArmed (writeBit s.armed c v)

/-- `c` names a completion source: `c < N_DMA_CH` (30_encoding.md R72). -/
def State.isChannel (s : State) (c : Nat) : Bool := c < s.params.nDmaCh

/-! ### The registry (10_state.md R26) -/

/-- `slot[j]`. -/
def State.slot (s : State) (j : Fin 8) : Slot := s.slots[j]

/-- `slot[j] <- v`. -/
def State.setSlot (s : State) (j : Fin 8) (v : Slot) : State := s.withSlots (s.slots.set j v)

/-- The slot indices in rising order. -/
def allSlots : List (Fin 8) := [0, 1, 2, 3, 4, 5, 6, 7]

/-- The slot indices of a direction's table, in rising order: TX slot `k` is `slot[k]`, RX slot `k` is
`slot[4 + k]` (10_state.md R26). -/
def tableSlots : Dir → List (Fin 8)
  | .tx => [0, 1, 2, 3]
  | .rx => [4, 5, 6, 7]

/-- The least valid slot that satisfies `p`. -/
def State.findSlot (s : State) (p : Slot → Bool) : Option (Fin 8) :=
  allSlots.find? fun j => (s.slot j).valid && p (s.slot j)

/-- The first free slot of a direction's table (40_registry.md R90, R91). -/
def State.freeSlot (s : State) (d : Dir) : Option (Fin 8) :=
  (tableSlots d).find? fun j => !(s.slot j).valid

/-- Some valid slot holds channel `c`. -/
def State.channelHeld (s : State) (c : Nat) : Bool :=
  allSlots.any fun j => (s.slot j).valid && (s.slot j).chan.toNat == c

/-! ### The instance store (10_state.md R36, 20_memory.md R56) -/

/-- The record under a handle, if the store lists one. -/
def Store.find? : Store → Word → Option Record
  | [], _ => none
  | (k, r) :: rest, h => if k = h then some r else Store.find? rest h

/-- List a record under a handle at its place in the rising order. -/
def Store.insert : Store → Word → Record → Store
  | [], h, r => [(h, r)]
  | (k, q) :: rest, h, r =>
    if h < k then (h, r) :: (k, q) :: rest
    else if k = h then (h, r) :: rest
    else (k, q) :: Store.insert rest h r

/-- Strike a handle from the list. -/
def Store.erase : Store → Word → Store
  | [], _ => []
  | (k, q) :: rest, h => if k = h then rest else (k, q) :: Store.erase rest h

/-- Change the record under a handle, if the store lists one. -/
def Store.modify : Store → Word → (Record → Record) → Store
  | [], _, _ => []
  | (k, q) :: rest, h, f => if k = h then (k, f q) :: rest else (k, q) :: Store.modify rest h f

/-- The canonical form: handles strictly rising, 0 not among them (log entry 9). -/
abbrev Store.wf (m : Store) : Prop := m.Pairwise (fun a b => a.1 < b.1) ∧ ∀ e ∈ m, e.1 ≠ 0

/-- `IS(h)`: the record of a live handle; handle 0 is never live (10_state.md R36). -/
def State.record? (s : State) (h : Word) : Option Record :=
  if h = 0 then none else Store.find? s.store h

/-- `IS(h).f <- v`: a write to fields of a live record (20_memory.md R56). -/
def State.updateRecord (s : State) (h : Word) (f : Record → Record) : State :=
  s.withStore (Store.modify s.store h f)

/-- `IS(h).busy <- v`. -/
def State.setBusy (s : State) (h : Word) (v : Bool) : State :=
  s.updateRecord h fun r => { r with busy := v }

/-! ### RESULT and the fault set -/

/-- The status codes (60_exceptions.md R160). -/
inductive Status where
  | ok
  | capacity
  | invalidChannel
  | duplicate
  | srcEnabled
  | busy
  | illegal
  | context
  deriving DecidableEq, Repr

/-- The code of a status (60_exceptions.md R160). -/
def statusCode : Status → Byte
  | .ok => 0x00
  | .capacity => 0x01
  | .invalidChannel => 0x02
  | .duplicate => 0x03
  | .srcEnabled => 0x04
  | .busy => 0x05
  | .illegal => 0x06
  | .context => 0x07

/-- RESULT.SLOT: the index of a slot, or 0xFF for none (10_state.md R24). -/
def slotCode : Option (Fin 8) → Byte
  | some j => BitVec.ofNat 8 j.val
  | none => 0xFF

/-- The word `result(status, slot, extra)` writes (10_state.md R24). -/
def resultWord (st : Status) (j : Option (Fin 8)) (extra : BitVec 3) : Word :=
  0#13 ++ extra ++ slotCode j ++ statusCode st

/-- `result(status, slot, extra)`: write `bank[ctx].RESULT` (10_state.md R24). -/
def State.setResult (s : State) (ctx : Context) (st : Status) (j : Option (Fin 8)) (extra : BitVec 3) : State :=
  s.withBank ctx { s.banks.get ctx with result := resultWord st j extra }

/-- `raise F_X(info)`: the record joins the set `faults` (10_state.md R45, 60_exceptions.md R161). -/
def State.recordFault (s : State) (f : FaultRecord) : State :=
  if f ∈ s.faults then s else s.withFaults (s.faults ++ [f])

/-! ### Entering and leaving interrupt context -/

/-- The entry step's effect (60_exceptions.md R164): the phase and nothing else; it saves no host state. -/
def State.enterDispatch (s : State) : State := s.withPhase (.scan 0)

/-- A hit slot's callback begins (60_exceptions.md R165): the latch, then IRQ context. DEDUCED (safe), log entry 17. -/
def State.enterCallback (s : State) (i : Fin 8) (fn ctx handle : Word) : State :=
  (s.withLatch fn ctx handle).withPhase (.inCallback i)

/-- The callback returns (43_callback_return.md R150): the result lands in `bank[IRQ]`, the latch is cleared, the scan
goes on at the next slot. -/
def State.returnFromCallback (s : State) (i : Fin 8) : State :=
  ((s.setResult .irq .ok (some Config.scanOrder[i]) 0).withLatch 0 0 0).withPhase (.scan i.succ)

/-- The least channel that is pending and enabled and that no valid slot holds (60_exceptions.md R168, R175). -/
def State.orphan? (s : State) : Option Nat :=
  (List.range s.params.nDmaCh).find? fun c => s.pending c && s.enabled c && !s.channelHeld c

/-- The exit step (60_exceptions.md R168): record an orphan source, then return from interrupt context. -/
def State.exitDispatch (s : State) : State :=
  match s.orphan? with
  | some c => if s.installed then (s.recordFault (.orphanSource c)).withPhase .idle else s.withPhase .idle
  | none => s.withPhase .idle

/-! ### Commands -/

/-- Which commands each context may issue (60_exceptions.md R177). -/
def allowedIn : Instr → Context → Bool
  | .nop, _ => true
  | .install, _ => true
  | .register, .main => true
  | .register, .irq => false
  | .unregister, .main => true
  | .unregister, .irq => false
  | .query, _ => true
  | .setCallback, _ => true
  | .busySet, _ => true
  | .busyClear, _ => true
  | .srcEnable _, _ => true
  | .srcDisable _, _ => true
  | .srcAck _, _ => true
  | .cbReturn, .main => false
  | .cbReturn, .irq => true

/-- A command in its issuing context: refused there with E_CONTEXT, or its own checks and effect
(30_encoding.md R76, checks 2 and 3). In `Scan(i)` no host access exists (10_state.md R22; log entry 7). -/
def command (i : Instr) (s : State) (body : Context → State) : Host.Outcome State Fault Refusal :=
  match s.phase.context? with
  | none => .refused .noHostContext
  | some ctx => .next (if allowedIn i ctx then body ctx else s.setResult ctx .context none 0)

end Sys2Proof.Machine
end

