-- ==== Sys2Proof/Machine/Flags.lean ====
section
/-! DEFINITION. What is computed from the state's flags: the interrupt line (10_state.md R32) and the words the
read-only registers show (R38 to R40), and QUERY's extra field (R24). -/

namespace Sys2Proof.Machine

/-- `LINE`: installed, and some source pending and enabled (10_state.md R32). -/
def State.line (s : State) : Bool :=
  s.installed && (List.range s.params.nDmaCh).any fun c => s.pending c && s.enabled c

/-- The level the CDRA drives on host interrupt input `k`: `LINE` on `IRQ_LINE` (10_state.md R32). -/
def State.hostInterrupt (s : State) (k : Nat) : Bool := k == s.params.irqLine && s.line

/-- How many slots of a direction's table are valid (10_state.md R38). -/
def State.slotCount (s : State) (d : Dir) : Nat := (tableSlots d).countP fun j => (s.slot j).valid

/-- STATUS.SCAN_IDX (10_state.md R38). -/
def Phase.scanIndex : Phase → Nat
  | .idle => 0
  | .scan i => i.val
  | .inCallback i => i.val

/-- STATUS.IN_DISPATCH (10_state.md R38). -/
def Phase.inDispatch : Phase → Bool
  | .idle => false
  | .scan _ => true
  | .inCallback _ => true

/-- STATUS.IN_CALLBACK (10_state.md R38). -/
def Phase.isCallback : Phase → Bool
  | .idle => false
  | .scan _ => false
  | .inCallback _ => true

/-- STATUS (10_state.md R38), bit 31 first. -/
def State.statusWord (s : State) : Word :=
  0#17 ++ BitVec.ofNat 3 (s.slotCount .rx) ++ 0#1 ++ BitVec.ofNat 3 (s.slotCount .tx)
    ++ BitVec.ofNat 4 s.phase.scanIndex ++ BitVec.ofBool s.phase.isCallback ++ BitVec.ofBool s.phase.inDispatch
    ++ BitVec.ofBool s.line ++ BitVec.ofBool s.installed

/-- The bits of a channel mask below `N_DMA_CH`, the rest 0 (10_state.md R39). -/
def State.channelMask (s : State) (m : Word) : Word := m &&& BitVec.ofNat 32 (2 ^ s.params.nDmaCh - 1)

/-- SRC_EN (10_state.md R39). -/
def State.srcEnWord (s : State) : Word := s.channelMask s.en

/-- SRC_PEND (10_state.md R39). -/
def State.srcPendWord (s : State) : Word := s.channelMask s.pend

/-- SLOTn_INFO (10_state.md R40). -/
def State.slotInfoWord (s : State) (n : Fin 8) : Word :=
  0#16 ++ (s.slot n).chan ++ 0#7 ++ BitVec.ofBool (s.slot n).valid

/-- The direction bit: 0 TX, 1 RX (10_state.md R37, D47). -/
def Dir.bit : Dir → Bool
  | .tx => false
  | .rx => true

/-- QUERY's extra field: DIR, CB_SET, BUSY from bit 18 down to bit 16 of RESULT (10_state.md R24, 40_registry.md R100). -/
def queryExtra (r : Record) : BitVec 3 :=
  BitVec.ofBool r.dir.bit ++ BitVec.ofBool (decide (r.cb ≠ 0)) ++ BitVec.ofBool r.busy

end Sys2Proof.Machine
end

