-- ==== Sys2Proof/Machine/Dispatcher.lean ====
section
/-! DEFINITION. The Dispatcher's steps (60_exceptions.md R164, R165, R168). -/

namespace Sys2Proof.Machine

/-- The slot examined at scan index `k`: `SCAN_ORDER[k]` (10_state.md R34). -/
def scanSlot (k : Fin 8) : Fin 8 := Config.scanOrder[k]

/-- The source of slot `j` "reports completion": valid, pending and enabled (60_exceptions.md R165). -/
def State.isHit (s : State) (j : Fin 8) : Bool :=
  (s.slot j).valid && s.pending (s.slot j).chan.toNat && s.enabled (s.slot j).chan.toNat

/-- Acknowledge the source of slot `j` and clear its instance's busy flag (60_exceptions.md R165). -/
def State.serve (s : State) (j : Fin 8) : State :=
  (s.setPending (s.slot j).chan.toNat false).setBusy (s.slot j).handle false

/-- The scan step at index `k` (60_exceptions.md R165). It reads `pend` at this step, so a completion that arrived in phase
`Scan(k)` for the slot about to be examined is served in this dispatch, as R165, R169 and 20_memory.md R62 say, where R174 puts it in the
next one. DESIGN CHOICE (unsafe), log entry 20. -/
def scanStep (k : Fin 8) (s : State) : State :=
  if s.isHit (scanSlot k) then
    match s.record? (s.slot (scanSlot k)).handle with
    | none => (s.recordFault (.danglingHandle (s.slot (scanSlot k)).handle)).withPhase (.scan k.succ)
    | some r =>
      if r.cb ≠ 0 then (s.serve (scanSlot k)).enterCallback k r.cb r.ctx (s.slot (scanSlot k)).handle
      else (s.serve (scanSlot k)).withPhase (.scan k.succ)
  else s.withPhase (.scan k.succ)

/-- The Dispatcher's step in each phase; where none is enabled, nothing changes (60_exceptions.md R164, R165, R168,
R172; log entry 1). -/
def dispatcherStep (s : State) : State :=
  match s.phase with
  | .idle => if s.line then s.enterDispatch else s
  | .scan i => if h : i.val < 8 then scanStep ⟨i.val, h⟩ s else s.exitDispatch
  | .inCallback _ => s

end Sys2Proof.Machine
end

