-- ==== Sys2Proof/Machine/Dma.lean ====
section
/-! DEFINITION. The DMA environment (60_exceptions.md R186, R187). -/

namespace Sys2Proof.Machine

/-- `dma_arm c` of an existing channel (60_exceptions.md R186). -/
def dmaArm (c : Nat) (s : State) : State :=
  if s.isArmed c then s.recordFault (.dmaContract c) else s.setArmed c true

/-- The completion event of `DMA[c]`, enabled iff the channel exists and is armed (60_exceptions.md R186); where it is
not enabled, nothing changes (log entry 1). -/
def dmaComplete (c : Nat) (s : State) : State :=
  if s.isChannel c && s.isArmed c then (s.setArmed c false).setPending c true else s

/-- Does this abort of an armed channel raise its completion (60_exceptions.md R187)? EITHER is the free value. -/
def State.abortRaises (s : State) : Bool :=
  match s.params.abortCompletion with
  | .never => false
  | .always => true
  | .either => Config.abortDraw s.draws

/-- The draw is used up: the next one is a fresh free value (log entry 5). -/
def State.useDraw (s : State) : State :=
  match s.params.abortCompletion with
  | .never => s
  | .always => s
  | .either => s.withDraws (s.draws + 1)

/-- `dma_abort c` of an existing channel (60_exceptions.md R187). -/
def dmaAbort (c : Nat) (s : State) : State :=
  if s.isArmed c then
    if s.abortRaises then ((s.setArmed c false).setPending c true).useDraw else (s.setArmed c false).useDraw
  else s

end Sys2Proof.Machine
end

