-- ==== Sys2Proof/Decode.lean ====
section
/-! DEFINITION. From a command word to a command and back (30_encoding.md R70 to R75), and from bytes: the window is
little-endian (20_memory.md R51), so a word's bits 7:0 are its first byte. -/

namespace Sys2Proof

/-- Why a word is no command. -/
inductive DecodeError where
  /-- Fewer than four bytes: no word at all. -/
  | truncated
  /-- RSV, bits 31:16, is not 0 (30_encoding.md R75). -/
  | reservedBits
  /-- OP is 0x0C to 0xFF (30_encoding.md R75). -/
  | reservedOpcode
  deriving DecidableEq, Repr

/-- OP, bits 7:0 (30_encoding.md R70). -/
def opField (w : Word) : Byte := w.extractLsb' 0 8

/-- CHAN, bits 15:8 (30_encoding.md R70, R72). -/
def chanField (w : Word) : Byte := w.extractLsb' 8 8

/-- RSV, bits 31:16 (30_encoding.md R70). -/
def rsvField (w : Word) : BitVec 16 := w.extractLsb' 16 16

/-- The command a word spells (30_encoding.md R73), or why it spells none (R75). -/
def decodeWord (w : Word) : Except DecodeError Instr :=
  if rsvField w ≠ 0 then .error .reservedBits
  else match (opField w).toNat with
    | 0x00 => .ok .nop
    | 0x01 => .ok .install
    | 0x02 => .ok .register
    | 0x03 => .ok .unregister
    | 0x04 => .ok .query
    | 0x05 => .ok .setCallback
    | 0x06 => .ok .busySet
    | 0x07 => .ok .busyClear
    | 0x08 => .ok (.srcEnable (chanField w))
    | 0x09 => .ok (.srcDisable (chanField w))
    | 0x0A => .ok (.srcAck (chanField w))
    | 0x0B => .ok .cbReturn
    | _ => .error .reservedOpcode

/-- The first command of a list of bytes, with the bytes after it: four bytes, the lowest-addressed first
(20_memory.md R51). -/
def decodeBytes : List Byte → Except DecodeError (Instr × List Byte)
  | b0 :: b1 :: b2 :: b3 :: rest =>
    match decodeWord (b3 ++ b2 ++ b1 ++ b0) with
    | .ok i => .ok (i, rest)
    | .error e => .error e
  | _ => .error .truncated

/-- The opcode of a command (30_encoding.md R73). -/
def opcode : Instr → Byte
  | .nop => 0x00
  | .install => 0x01
  | .register => 0x02
  | .unregister => 0x03
  | .query => 0x04
  | .setCallback => 0x05
  | .busySet => 0x06
  | .busyClear => 0x07
  | .srcEnable _ => 0x08
  | .srcDisable _ => 0x09
  | .srcAck _ => 0x0A
  | .cbReturn => 0x0B

/-- The CHAN field the assembler writes: the operand where there is one, else 0 (30_encoding.md R78). -/
def chanOperand : Instr → Byte
  | .srcEnable c => c
  | .srcDisable c => c
  | .srcAck c => c
  | .nop => 0
  | .install => 0
  | .register => 0
  | .unregister => 0
  | .query => 0
  | .setCallback => 0
  | .busySet => 0
  | .busyClear => 0
  | .cbReturn => 0

/-- The command word the assembler gives a command (30_encoding.md R70, R78). -/
def encode (i : Instr) : Word := 0#16 ++ chanOperand i ++ opcode i

/-- A word as its four bytes, lowest address first (20_memory.md R51). -/
def wordBytes (w : Word) : List Byte :=
  [w.extractLsb' 0 8, w.extractLsb' 8 8, w.extractLsb' 16 8, w.extractLsb' 24 8]

/-- The 32-bit word whose lower `nbits` bits are those of `w`, the bits above them 0. -/
def tableWord (nbits w : Nat) : Word := BitVec.ofNat 32 (w % 2 ^ nbits)

/-- The host's question of the decoder: the command whose bits, numbered as spec/opcode_table.json numbers them,
are `w`. -/
def decodeTableWord (nbits w : Nat) : Option Instr :=
  match decodeBytes (wordBytes (tableWord nbits w)) with
  | .ok (i, _) => some i
  | .error _ => none

end Sys2Proof
end

