-- ==== Sys2Proof/Machine/Assembler.lean ====
section
/-! DEFINITION. The assembler statements (30_encoding.md R77, R78) as the host actions they expand to, and the engine
sequences (R79), cut where the host decides on a value it read: the action that takes the decision ends the first part. -/

namespace Sys2Proof.Machine

/-- `wr OFF, V` (30_encoding.md R77). -/
def asmWr (off : Byte) (v : Word) : HostAction := .write off 4 v

/-- `rd OFF` (30_encoding.md R77). -/
def asmRd (off : Byte) : HostAction := .read off 4

/-- `wr CMD, <word of i>` (30_encoding.md R78). -/
def asmCmd (i : Instr) : HostAction := asmWr 0x00 (encode i)

/-- `-> S`: read RESULT (30_encoding.md R78). -/
def asmResult : HostAction := asmRd 0x10

/-- The statements without a register operand: `nop`, `install`, `src_enable c`, `src_disable c`, `src_ack c`,
`cb_return`. -/
def asmPlain (i : Instr) : List HostAction := [asmCmd i]

/-- The statements with a handle: `register h`, `unregister h`, `query h`, `busy_set h`, `busy_clear h`. -/
def asmOnHandle (i : Instr) (h : Word) : List HostAction := [asmWr 0x04 h, asmCmd i]

/-- `set_callback h, fn, cx`. -/
def asmSetCallback (h fn cx : Word) : List HostAction :=
  [asmWr 0x04 h, asmWr 0x08 fn, asmWr 0x0C cx, asmCmd .setCallback]

/-- RESULT.STATUS of a word read from RESULT (10_state.md R24). -/
def resultStatus (s : Word) : Byte := s.extractLsb' 0 8

/-- RESULT.STATUS is OK (60_exceptions.md R160). -/
def resultIsOk (s : Word) : Bool := resultStatus s == 0x00

/-- `engine_init h` of a record with channel `c`, up to its decision (30_encoding.md R79). -/
def engineInitHead (c : Byte) (h : Word) : List HostAction :=
  if c = Config.chanInvalid then [.giveAnswer .resourceExhausted]
  else asmOnHandle .register h ++ [asmResult, .initDecides c]

/-- `engine_init`, from REGISTER's result on (30_encoding.md R79). -/
def engineInitTail (c : Byte) (result : Word) : List HostAction :=
  if resultIsOk result then
    asmPlain (.srcAck c) ++ asmPlain .install ++ asmPlain (.srcEnable c) ++ [.giveAnswer (.status 0x00)]
  else [.releaseChannel c.toNat, .giveAnswer (.status (resultStatus result))]

/-- `engine_start h, len`, up to its decision (30_encoding.md R79). -/
def engineStartHead (h : Word) (len : Nat) : List HostAction :=
  if len = 0 then [.giveAnswer .noValue] else asmOnHandle .busySet h ++ [asmResult, .startDecides h]

/-- `engine_start`, where BUSY_SET was refused with this result (30_encoding.md R79). -/
def engineStartRefused (result : Word) : List HostAction := [.giveAnswer (.status (resultStatus result))]

/-- `engine_start`, where BUSY_SET succeeded and the record's channel is `c` (30_encoding.md R79). -/
def engineStartArms (c : Byte) : List HostAction := [.dmaArm c.toNat, .giveAnswer .noValue]

/-- The statements with which `engine_abort` and `engine_deinit` begin: the source disabled, the transfer cancelled, the
busy flag cleared (30_encoding.md R79). -/
def engineQuiesce (c : Byte) (h : Word) : List HostAction :=
  asmPlain (.srcDisable c) ++ [.dmaAbort c.toNat] ++ asmOnHandle .busyClear h

/-- `engine_abort h` of a record with channel `c` (30_encoding.md R79). -/
def engineAbortBody (c : Byte) (h : Word) : List HostAction :=
  engineQuiesce c h ++ asmPlain (.srcAck c) ++ asmPlain (.srcEnable c) ++ [.giveAnswer .noValue]

/-- `engine_deinit h` of a record with channel `c`; `compute` stands for unloading the program (30_encoding.md R79). -/
def engineDeinitBody (c : Byte) (h : Word) : List HostAction :=
  engineQuiesce c h ++ [.releaseChannel c.toNat, .compute] ++ asmOnHandle .unregister h ++ asmPlain (.srcAck c)
    ++ [.giveAnswer .noValue]

end Sys2Proof.Machine
end

