-- ==== Sys2Proof/Machine/Operands.lean ====
section
/-! DEFINITION. The operand forms (30_encoding.md R71, R72, R74): the issuing context's banked registers, the record a
handle names, the CHAN field. -/

namespace Sys2Proof.Machine

/-- `h = bank[ctx].ARG_HANDLE` (30_encoding.md R71). -/
def State.argHandle (s : State) (ctx : Context) : Word := (s.banks.get ctx).argHandle

/-- `fn = bank[ctx].ARG_FN` (30_encoding.md R71). -/
def State.argFn (s : State) (ctx : Context) : Word := (s.banks.get ctx).argFn

/-- `cx = bank[ctx].ARG_CTX` (30_encoding.md R71). -/
def State.argCtx (s : State) (ctx : Context) : Word := (s.banks.get ctx).argCtx

/-- `r <- IS(h)` for the handle operand, then `body h r`; a handle that is not live is recorded as
`F_DANGLING_HANDLE(h)` and nothing else is written, not even RESULT (60_exceptions.md R161). -/
def withRecord (s : State) (ctx : Context) (body : Word → Record → State) : State :=
  match s.record? (s.argHandle ctx) with
  | none => s.recordFault (.danglingHandle (s.argHandle ctx))
  | some r => body (s.argHandle ctx) r

/-- `c <- word[15:8]`, zero-extended (30_encoding.md R72), then `body c`; a value that names no source fails with
E_INVALID_CHANNEL (41_install_and_sources.md R116). -/
def withChannel (s : State) (ctx : Context) (chan : Byte) (body : Nat → State) : State :=
  if s.isChannel chan.toNat then body chan.toNat else s.setResult ctx .invalidChannel none 0

end Sys2Proof.Machine
end

