-- ==== Sys2Proof/Machine/Callback.lean ====
section
/-! DEFINITION. CB_RETURN (43_callback_return.md). -/

namespace Sys2Proof.Machine

/-- CB_RETURN (43_callback_return.md R150). It is allowed in IRQ context only (60_exceptions.md R177), and IRQ context is
phase `InCallback(i)` (10_state.md R22), so its body runs in no other phase. -/
def execCbReturn (s : State) : Host.Outcome State Fault Refusal :=
  command .cbReturn s fun _ =>
    match s.phase with
    | .inCallback i => s.returnFromCallback i
    | .idle => s
    | .scan _ => s

end Sys2Proof.Machine
end

