-- ==== Sys2Proof/Machine/Fields.lean ====
section
/-! DEFINITION. SET_CALLBACK, BUSY_SET, BUSY_CLEAR (42_instance.md). -/

namespace Sys2Proof.Machine

/-- SET_CALLBACK: function and context in one step (42_instance.md R130). -/
def execSetCallback (s : State) : Host.Outcome State Fault Refusal :=
  command .setCallback s fun ctx => withRecord s ctx fun h _ =>
    (s.updateRecord h fun r => { r with cb := s.argFn ctx, ctx := s.argCtx ctx }).setResult ctx .ok none 0

/-- BUSY_SET: a start while busy is rejected (42_instance.md R134). -/
def execBusySet (s : State) : Host.Outcome State Fault Refusal :=
  command .busySet s fun ctx => withRecord s ctx fun h r =>
    if r.busy then s.setResult ctx .busy none 0
    else (s.setBusy h true).setResult ctx .ok none 0

/-- BUSY_CLEAR (42_instance.md R138). -/
def execBusyClear (s : State) : Host.Outcome State Fault Refusal :=
  command .busyClear s fun ctx => withRecord s ctx fun h _ => (s.setBusy h false).setResult ctx .ok none 0

end Sys2Proof.Machine
end

