-- ==== Sys2Proof/Machine/Registry.lean ====
section
/-! DEFINITION. REGISTER, UNREGISTER, QUERY (40_registry.md). -/

namespace Sys2Proof.Machine

/-- The slot whose registration stands in the way of `(h, c)`: it holds the handle or the channel
(40_registry.md R91, E_DUPLICATE). -/
def State.duplicateOf (s : State) (h : Word) (c : Byte) : Option (Fin 8) :=
  s.findSlot fun sl => sl.handle == h || sl.chan == c

/-- The slot that holds a handle (40_registry.md R97, R100). -/
def State.slotOf (s : State) (h : Word) : Option (Fin 8) :=
  s.findSlot fun sl => sl.handle == h

/-- REGISTER after its liveness check: channel, duplicate, mutation discipline, capacity, then the first free slot
(40_registry.md R91, R92). -/
def registerRecord (s : State) (ctx : Context) (h : Word) (r : Record) : State :=
  if !s.isChannel r.chan.toNat then s.setResult ctx .invalidChannel none 0
  else match s.duplicateOf h r.chan with
    | some j => s.setResult ctx .duplicate (some j) 0
    | none =>
      if s.enabled r.chan.toNat then s.setResult ctx .srcEnabled none 0
      else match s.freeSlot r.dir with
        | none => s.setResult ctx .capacity none 0
        | some j => (s.setSlot j { valid := true, handle := h, chan := r.chan }).setResult ctx .ok (some j) 0

/-- REGISTER (40_registry.md R91). -/
def execRegister (s : State) : Host.Outcome State Fault Refusal :=
  command .register s fun ctx => withRecord s ctx fun h r => registerRecord s ctx h r

/-- UNREGISTER's own part: by handle alone, the store is never read (40_registry.md R97). -/
def unregisterHandle (s : State) (ctx : Context) (h : Word) : State :=
  match s.slotOf h with
  | some j =>
    if s.enabled (s.slot j).chan.toNat then s.setResult ctx .srcEnabled (some j) 0
    else (s.setSlot j Slot.empty).setResult ctx .ok (some j) 0
  | none => s.setResult ctx .ok none 0

/-- UNREGISTER (40_registry.md R97). -/
def execUnregister (s : State) : Host.Outcome State Fault Refusal :=
  command .unregister s fun ctx => unregisterHandle s ctx (s.argHandle ctx)

/-- QUERY (40_registry.md R100). -/
def execQuery (s : State) : Host.Outcome State Fault Refusal :=
  command .query s fun ctx => withRecord s ctx fun h r => s.setResult ctx .ok (s.slotOf h) (queryExtra r)

end Sys2Proof.Machine
end

