-- ==== Sys2Proof/Machine/Sources.lean ====
section
/-! DEFINITION. NOP, INSTALL, SRC_ENABLE, SRC_DISABLE, SRC_ACK (41_install_and_sources.md). -/

namespace Sys2Proof.Machine

/-- NOP (41_install_and_sources.md R110). -/
def execNop (s : State) : Host.Outcome State Fault Refusal :=
  command .nop s fun ctx => s.setResult ctx .ok none 0

/-- INSTALL (41_install_and_sources.md R111). -/
def execInstall (s : State) : Host.Outcome State Fault Refusal :=
  command .install s fun ctx => (s.withInstalled true).setResult ctx .ok none 0

/-- SRC_ENABLE (41_install_and_sources.md R113). -/
def execSrcEnable (chan : Byte) (s : State) : Host.Outcome State Fault Refusal :=
  command (.srcEnable chan) s fun ctx =>
    withChannel s ctx chan fun c => (s.setEnabled c true).setResult ctx .ok none 0

/-- SRC_DISABLE (41_install_and_sources.md R114). -/
def execSrcDisable (chan : Byte) (s : State) : Host.Outcome State Fault Refusal :=
  command (.srcDisable chan) s fun ctx =>
    withChannel s ctx chan fun c => (s.setEnabled c false).setResult ctx .ok none 0

/-- SRC_ACK: the dispatcher's acknowledgement, with no busy clear and no callback (41_install_and_sources.md R115). -/
def execSrcAck (chan : Byte) (s : State) : Host.Outcome State Fault Refusal :=
  command (.srcAck chan) s fun ctx =>
    withChannel s ctx chan fun c => (s.setPending c false).setResult ctx .ok none 0

end Sys2Proof.Machine
end

