-- ==== Sys2Proof/Machine/Dispatch.lean ====
section
/-! DEFINITION. One arm per command. -/

namespace Sys2Proof.Machine

def exec (i : Instr) (s : State) : Host.Outcome State Fault Refusal :=
  match i with
  | .nop => Sys2Proof.Machine.execNop s
  | .install => Sys2Proof.Machine.execInstall s
  | .register => Sys2Proof.Machine.execRegister s
  | .unregister => Sys2Proof.Machine.execUnregister s
  | .query => Sys2Proof.Machine.execQuery s
  | .setCallback => Sys2Proof.Machine.execSetCallback s
  | .busySet => Sys2Proof.Machine.execBusySet s
  | .busyClear => Sys2Proof.Machine.execBusyClear s
  | .srcEnable c => Sys2Proof.Machine.execSrcEnable c s
  | .srcDisable c => Sys2Proof.Machine.execSrcDisable c s
  | .srcAck c => Sys2Proof.Machine.execSrcAck c s
  | .cbReturn => Sys2Proof.Machine.execCbReturn s

end Sys2Proof.Machine
end

