-- ==== Sys2Proof/Machine/Bus.lean ====
section
/-! DEFINITION. The register window: which register an offset names (10_state.md R21), what a read returns and what a
write does (20_memory.md R51 to R55). -/

namespace Sys2Proof.Machine

/-- The registers of the window (10_state.md R21). -/
inductive WindowReg where
  | cmd
  | argHandle
  | argFn
  | argCtx
  | result
  | status
  | srcEn
  | srcPend
  | curFn
  | curCtx
  | curHandle
  | slotInfo (n : Fin 8)
  | slotHandle (n : Fin 8)
  | reserved
  deriving DecidableEq, Repr

/-- The slot whose two registers stand at offset `0x40 + 8n` and `0x44 + 8n` (10_state.md R21, R40). -/
def slotOfOffset (off : Byte) : Fin 8 := Fin.ofNat 8 ((off.toNat - 0x40) / 8)

/-- The register at a word-aligned offset (10_state.md R21). -/
def windowReg (off : Byte) : WindowReg :=
  if 0x40 ≤ off.toNat && off.toNat < 0x80 then
    if off.toNat % 8 = 0 then .slotInfo (slotOfOffset off) else .slotHandle (slotOfOffset off)
  else match off.toNat with
    | 0x00 => .cmd
    | 0x04 => .argHandle
    | 0x08 => .argFn
    | 0x0C => .argCtx
    | 0x10 => .result
    | 0x14 => .status
    | 0x18 => .srcEn
    | 0x1C => .srcPend
    | 0x20 => .curFn
    | 0x24 => .curCtx
    | 0x28 => .curHandle
    | _ => .reserved

/-- What a read of a register returns to a context (10_state.md R23 to R25, R38 to R41, 20_memory.md R53). -/
def State.readReg (s : State) (ctx : Context) : WindowReg → Word
  | .cmd => 0
  | .argHandle => (s.banks.get ctx).argHandle
  | .argFn => (s.banks.get ctx).argFn
  | .argCtx => (s.banks.get ctx).argCtx
  | .result => (s.banks.get ctx).result
  | .status => s.statusWord
  | .srcEn => s.srcEnWord
  | .srcPend => s.srcPendWord
  | .curFn => s.curFn
  | .curCtx => s.curCtx
  | .curHandle => s.curHandle
  | .slotInfo n => s.slotInfoWord n
  | .slotHandle n => (s.slot n).handle
  | .reserved => 0

/-- A write to CMD: an illegal word gives E_ILLEGAL and nothing else (30_encoding.md R75, R76 check 1), a legal one
executes its command, as one atomic step (10_state.md R25, 20_memory.md R55). -/
def writeCmd (s : State) (ctx : Context) (w : Word) : Host.Outcome State Fault Refusal :=
  match decodeWord w with
  | .ok i => exec i s
  | .error _ => .next (s.setResult ctx .illegal none 0)

/-- What a 32-bit aligned write to a register does (20_memory.md R53, R54). -/
def writeReg (s : State) (ctx : Context) (v : Word) : WindowReg → Host.Outcome State Fault Refusal
  | .cmd => writeCmd s ctx v
  | .argHandle => .next (s.withBank ctx { s.banks.get ctx with argHandle := v })
  | .argFn => .next (s.withBank ctx { s.banks.get ctx with argFn := v })
  | .argCtx => .next (s.withBank ctx { s.banks.get ctx with argCtx := v })
  | .result => .next s
  | .status => .next s
  | .srcEn => .next s
  | .srcPend => .next s
  | .curFn => .next s
  | .curCtx => .next s
  | .curHandle => .next s
  | .slotInfo _ => .next s
  | .slotHandle _ => .next s
  | .reserved => .next s

/-- The only access the window takes: 32 bits wide, word-aligned (20_memory.md R51). `BLOCK_BASE` is 256-byte aligned,
so the offset is aligned iff the address is. -/
def properAccess (off : Byte) (size : Nat) : Bool := size == 4 && off.toNat % 4 == 0

/-- The address of an access: `BLOCK_BASE + OFF` (30_encoding.md R77). -/
def State.busAddress (s : State) (off : Byte) : Word := s.params.blockBase + off.setWidth 32

/-- `F_BUS(addr, size)` of an access the window does not take (20_memory.md R52). -/
def State.busFault (s : State) (off : Byte) (size : Nat) : State := s.recordFault (.bus (s.busAddress off) size)

/-- The host's variable takes what the bus returned (30_encoding.md R77). -/
def State.returnData (s : State) (ctx : Context) (v : Word) : State :=
  s.withFlow ctx { s.flows.get ctx with readData := v }

/-- A host read of the window (20_memory.md R51 to R54): an improper one records `F_BUS` and returns 0. -/
def busRead (s : State) (ctx : Context) (off : Byte) (size : Nat) : State :=
  if properAccess off size then s.returnData ctx (s.readReg ctx (windowReg off))
  else (s.busFault off size).returnData ctx 0

/-- A host write to the window (20_memory.md R51 to R55): an improper one records `F_BUS` and does nothing else. -/
def busWrite (s : State) (ctx : Context) (off : Byte) (size : Nat) (v : Word) :
    Host.Outcome State Fault Refusal :=
  if properAccess off size then writeReg s ctx v (windowReg off) else .next (s.busFault off size)

end Sys2Proof.Machine
end

