-- ==== Sys2Proof/Machine/Engine.lean ====
section
/-! DEFINITION. What a host flow does outside the window: reading its instance records (20_memory.md R50, R63), and the
engine operations (30_encoding.md R79), each of which puts its statements in front of what the flow does next. -/

namespace Sys2Proof.Machine

/-- Field `f` of a record as the word a read of it returns (10_state.md R37). -/
def Record.field (r : Record) : RecordField → Word
  | .dir => (BitVec.ofBool r.dir.bit).setWidth 32
  | .chan => r.chan.setWidth 32
  | .busy => (BitVec.ofBool r.busy).setWidth 32
  | .cb => r.cb
  | .ctx => r.ctx

/-- The host reads `IS(h).f`; of a handle that is not live the read records `F_DANGLING_HANDLE(h)` and returns 0
(00_scope.md R11, 60_exceptions.md R161). DESIGN CHOICE, log entry 21. -/
def hostReadRecord (s : State) (ctx : Context) (h : Word) (f : RecordField) : State :=
  match s.record? h with
  | none => (s.recordFault (.danglingHandle h)).returnData ctx 0
  | some r => s.returnData ctx (r.field f)

/-- The flow's next actions are these, before what it had to do already. -/
def State.runFirst (s : State) (ctx : Context) (l : List HostAction) : State :=
  s.withFlow ctx { s.flows.get ctx with todo := l ++ (s.flows.get ctx).todo }

/-- An engine operation returned `v` to the flow. -/
def State.answer (s : State) (ctx : Context) (v : EngineReturn) : State :=
  s.withFlow ctx { s.flows.get ctx with answer := some v }

/-- `c = IS(h).chan`, then the statements of `body c`; of a handle that is not live the operation ends there
(00_scope.md R11; DESIGN CHOICE, log entry 21). -/
def runOnChannel (s : State) (ctx : Context) (h : Word) (body : Byte → List HostAction) : State :=
  match s.record? h with
  | none => s.recordFault (.danglingHandle h)
  | some r => s.runFirst ctx (body r.chan)

/-- `S`, the value the flow read from RESULT (30_encoding.md R78). -/
def State.resultRead (s : State) (ctx : Context) : Word := (s.flows.get ctx).readData

/-- The decision of `engine_init` on REGISTER's result (30_encoding.md R79). -/
def initDecision (s : State) (ctx : Context) (c : Byte) : State :=
  s.runFirst ctx (engineInitTail c (s.resultRead ctx))

/-- The decision of `engine_start` on BUSY_SET's result: refused, or `dma_arm IS(h).chan` (30_encoding.md R79). -/
def startDecision (s : State) (ctx : Context) (h : Word) : State :=
  if resultIsOk (s.resultRead ctx) then runOnChannel s ctx h engineStartArms
  else s.runFirst ctx (engineStartRefused (s.resultRead ctx))

end Sys2Proof.Machine
end

