-- ==== Sys2Proof/Machine/Schedule.lean ====
section
/-! DEFINITION. The agents' steps (00_scope.md R9) and which of them is next (20_memory.md R59; log entry 1). -/

namespace Sys2Proof.Machine

/-- A record as the host creates it: busy 0, no callback (10_state.md R37). -/
def newRecord (dir : Dir) (chan : Byte) : Record := { dir := dir, chan := chan, busy := false, cb := 0, ctx := 0 }

/-- The host creates a record under a handle that is free and not 0 (10_state.md R36; log entry 9). -/
def createRecord (h : Word) (dir : Dir) (chan : Byte) (s : State) : Host.Outcome State Fault Refusal :=
  if h = 0 then .fault (.storeContract h)
  else match s.record? h with
    | some _ => .fault (.storeContract h)
    | none => .next (s.withStore (Store.insert s.store h (newRecord dir chan)))

/-- The host destroys a live record, registered or not (10_state.md R36; log entry 9). -/
def destroyRecord (h : Word) (s : State) : Host.Outcome State Fault Refusal :=
  match s.record? h with
  | some _ => .next (s.withStore (Store.erase s.store h))
  | none => .fault (.storeContract h)

/-- One action of a host flow (30_encoding.md R77, R79, 60_exceptions.md R171). -/
def hostAction (ctx : Context) (a : HostAction) (s : State) : Host.Outcome State Fault Refusal :=
  match a with
  | .read off size => .next (busRead s ctx off size)
  | .write off size v => busWrite s ctx off size v
  | .dmaArm c => if s.isChannel c then .next (dmaArm c s) else .fault (.noSuchChannel c)
  | .dmaAbort c => if s.isChannel c then .next (dmaAbort c s) else .fault (.noSuchChannel c)
  | .create h dir chan => createRecord h dir chan s
  | .destroy h => destroyRecord h s
  | .readRecord h f => .next (hostReadRecord s ctx h f)
  | .releaseChannel _ => .next s
  | .engineInit h => .next (runOnChannel s ctx h fun c => engineInitHead c h)
  | .initDecides c => .next (initDecision s ctx c)
  | .engineStart h len => .next (s.runFirst ctx (engineStartHead h len))
  | .startDecides h => .next (startDecision s ctx h)
  | .engineAbort h => .next (runOnChannel s ctx h fun c => engineAbortBody c h)
  | .engineDeinit h => .next (runOnChannel s ctx h fun c => engineDeinitBody c h)
  | .giveAnswer v => .next (s.answer ctx v)
  | .compute => .next s

/-- The flow's first action is taken off its list. -/
def State.popAction (s : State) (ctx : Context) : State :=
  s.withFlow ctx { s.flows.get ctx with todo := (s.flows.get ctx).todo.tail }

/-- A step of a host flow. It is enabled in its own context's phase only: Host-main in Idle, Host-irq in `InCallback`
(10_state.md R22, 60_exceptions.md R164, R171); otherwise its action waits and nothing changes. -/
def hostStep (ctx : Context) (s : State) : Host.Outcome State Fault Refusal :=
  if s.phase.context? = some ctx then
    match (s.flows.get ctx).todo with
    | [] => .next s
    | a :: _ => hostAction ctx a (s.popAction ctx)
  else .next s

/-- System reset (70_reset_and_hazards.md R200): the table of 10_state.md R46, the environment's rows included. The model's
own fields are inputs and arguments, and stay (log entry 10). -/
def platformReset (s : State) : State :=
  { State.reset with params := s.params, flows := s.flows, sched := s.sched, draws := s.draws }

/-- One step of one agent. -/
def agentStep (a : Agent) (s : State) : Host.Outcome State Fault Refusal :=
  match a with
  | .host ctx => hostStep ctx s
  | .dispatcher => .next (dispatcherStep s)
  | .dma c => .next (dmaComplete c s)
  | .platform => .next (platformReset s)

/-- Who steps when the schedule is used up: the Dispatcher wherever its step is enabled (60_exceptions.md R179), else the
host flow the phase lets run. DESIGN CHOICE, log entry 1. -/
def State.defaultAgent (s : State) : Agent :=
  match s.phase with
  | .idle => if s.line then .dispatcher else .host .main
  | .scan _ => .dispatcher
  | .inCallback _ => .host .irq

/-- Who steps next: the schedule's first entry (log entry 1). -/
def State.nextAgent (s : State) : Agent :=
  match s.sched with
  | [] => s.defaultAgent
  | a :: _ => a

/-- The schedule's first entry is taken off. -/
def State.popSched (s : State) : State := s.withSched s.sched.tail

/-- One step of the machine: the next agent's. -/
def scheduledStep (s : State) : Host.Outcome State Fault Refusal := agentStep s.nextAgent s.popSched

/-- The context a command placed from outside is issued in: the phase's, and MAIN in `Scan(i)`, which has none. -/
def Phase.fetchContext : Phase → Context
  | .idle => .main
  | .scan _ => .main
  | .inCallback _ => .irq

/-- The phase in which the placed command is issued: a `Scan` phase, in which no command exists, gives way to Idle. -/
def Phase.fetchPhase : Phase → Phase
  | .idle => .idle
  | .scan _ => .idle
  | .inCallback i => .inCallback i

/-- Put a write of `w` to CMD at the front of the flow the phase lets run, and that flow at the front of the schedule
(log entry 3). -/
def State.placeCommand (s : State) (w : Word) : State :=
  let ctx := s.phase.fetchContext
  ((s.withPhase s.phase.fetchPhase).withFlow ctx
    { s.flows.get ctx with todo := .write 0x00 4 w :: (s.flows.get ctx).todo }).withSched (.host ctx :: s.sched)

end Sys2Proof.Machine
end

