-- ==== Sys2Proof/Machine/Step.lean ====
section
/-! DEFINITION. The step, and placing a command where the next step runs it. -/

namespace Sys2Proof.Machine

/-- One step of the machine (Machine/Schedule.lean). -/
def step (s : State) : Host.Outcome State Fault Refusal := scheduledStep s

/-- `s` with the command word whose bits are `w` written to CMD by the very next step (log entry 3). -/
def State.withFetchWord (s : State) (nbits w : Nat) : State := s.placeCommand (tableWord nbits w)

end Sys2Proof.Machine
end

