-- ==== Sys2Proof/WellFormed.lean ====
section
/-! DEFINITION. Which command words are legal (30_encoding.md R75) and which model arguments are (00_scope.md R8).
A term of `Instr` needs no check: the type of its one operand, `Byte`, holds exactly the values the CHAN field has. -/

namespace Sys2Proof

/-- A command word is legal iff its RSV field is 0 and its OP field is one of the twelve opcodes
(30_encoding.md R70, R75). Written on numbers, apart from the decoder. -/
def legalWord (w : Word) : Bool :=
  w.toNat / 65536 == 0 && w.toNat % 256 < 12

/-- The model arguments are in range: `N_DMA_CH` is 1 to 32 (00_scope.md R8). -/
def Params.wellFormed (p : Params) : Bool :=
  1 ≤ p.nDmaCh && p.nDmaCh ≤ 32

end Sys2Proof
end

