-- ==== Sys2Proof/Safety.lean ====
section
/-! DEFINITION. What every state of a run satisfies, and what a successful one does, in the terms the claims use. -/

namespace Sys2Proof.Machine

/-- Every slot is canonical: an empty one holds handle 0 and channel 0xFF, a valid one a nonzero handle and an existing
channel (10_state.md R27). -/
def State.SlotsCanonical (s : State) : Prop :=
  ∀ j : Fin 8,
    ((s.slot j).valid = false → s.slot j = Slot.empty) ∧
    ((s.slot j).valid = true → (s.slot j).handle ≠ 0 ∧ (s.slot j).chan.toNat < s.params.nDmaCh)

/-- No two valid slots share a channel or a handle (10_state.md R28 (a), (b)). -/
def State.SlotsDistinct (s : State) : Prop :=
  ∀ i j : Fin 8, i ≠ j → (s.slot i).valid = true → (s.slot j).valid = true →
    (s.slot i).chan ≠ (s.slot j).chan ∧ (s.slot i).handle ≠ (s.slot j).handle

/-- A valid slot's instance, while live, has the direction of the slot's table (10_state.md R28 (c)). -/
def State.SlotsDirected (s : State) : Prop :=
  ∀ j : Fin 8, (s.slot j).valid = true → ∀ r, s.record? (s.slot j).handle = some r →
    (r.dir = .tx ↔ j.val < 4)

/-- Outside a callback the latch is 0 (10_state.md R35); in `InCallback(i)` it holds a nonzero function and the handle of
slot `SCAN_ORDER[i]`, which is valid (60_exceptions.md R165, R177). -/
def State.LatchOk (s : State) : Prop :=
  match s.phase with
  | .idle => s.curFn = 0 ∧ s.curCtx = 0 ∧ s.curHandle = 0
  | .scan _ => s.curFn = 0 ∧ s.curCtx = 0 ∧ s.curHandle = 0
  | .inCallback i => s.curFn ≠ 0 ∧ (s.slot (scanSlot i)).valid = true ∧ s.curHandle = (s.slot (scanSlot i)).handle

/-- No bit above the existing channels is ever set (10_state.md R30, R39, R42). -/
def State.MasksOk (s : State) : Prop :=
  ∀ c : Nat, s.params.nDmaCh ≤ c → s.enabled c = false ∧ s.pending c = false ∧ s.isArmed c = false

/-- RESULT's bits 31:19 are 0 in both banks (10_state.md R24). -/
def State.ResultsOk (s : State) : Prop :=
  ∀ ctx : Context, (s.banks.get ctx).result.toNat < 2 ^ 19

/-- A run so far without a recorded model fault: "a faulted state is never a successful end" (92_eei_decisions.md D38). -/
def State.faultFree (s : State) : Prop := s.faults = []

end Sys2Proof.Machine
end

