-- ==== Sys2Proof/Certificates/Slice0/Obligations.lean ====
section
/-! DEFINITION. The statements for the provers, each from numbered rules of spec/. A frame is said by an equation of
states: `t = { s with f := … }` says that every field but `f` is unchanged (all registers of both banks, the slots, the
masks, the latch, the phase, the fault set, the instance store, the model's own fields). -/

namespace Sys2Proof.Claims

open Sys2Proof.Machine

/-- `s` with RESULT of context `ctx` holding `w`, everything else unchanged. -/
def withResult (s : State) (ctx : Context) (w : Word) : State :=
  { s with banks := s.banks.set ctx { s.banks.get ctx with result := w } }

/-- `s` with slot `j` holding `v`, everything else unchanged. -/
def withSlot (s : State) (j : Fin 8) (v : Slot) : State := { s with slots := s.slots.set j v }

/-- The RESULT word with these fields (10_state.md R24): bits 18:16, 15:8, 7:0. -/
def resultOf (status slot extra : Nat) : Word := BitVec.ofNat 32 (extra * 65536 + slot * 256 + status)

/-- `t` is `s` with `f` joined to the fault set, and nothing else changed (60_exceptions.md R161). -/
def recordsOnly (s t : State) (f : FaultRecord) : Prop :=
  t = { s with faults := t.faults } ∧ ∀ g, g ∈ t.faults ↔ g ∈ s.faults ∨ g = f

/-- Slot `k` of a direction's table (10_state.md R26): `slot[k]` for TX, `slot[4 + k]` for RX. -/
def tableIndex (d : Dir) (k : Fin 4) : Fin 8 :=
  match d with
  | .tx => ⟨k.val, by omega⟩
  | .rx => ⟨4 + k.val, by omega⟩

/-- `s` with the value `v` returned to host flow `ctx` by its read (30_encoding.md R77): the model holds it in the flow
(log entry 2). -/
def returned (s : State) (ctx : Context) (v : Word) : State :=
  { s with flows := s.flows.set ctx { s.flows.get ctx with readData := v } }

/-- `s` with these actions put before what host flow `ctx` has to do (log entry 2). -/
def queued (s : State) (ctx : Context) (l : List HostAction) : State :=
  { s with flows := s.flows.set ctx { s.flows.get ctx with todo := l ++ (s.flows.get ctx).todo } }

/-- The word of SRC_ENABLE, SRC_DISABLE or SRC_ACK of channel `c` (30_encoding.md R78): `(c << 8) | op`. -/
def chanWord (c : Byte) (op : Nat) : Word := BitVec.ofNat 32 (c.toNat * 256 + op)

/-- Valid slot `j` holds the handle (40_registry.md R97). -/
def holdsHandle (s : State) (h : Word) (j : Fin 8) : Prop := (s.slot j).valid = true ∧ (s.slot j).handle = h

/-- Valid slot `j` holds the handle or the channel (40_registry.md R91). -/
def holdsEither (s : State) (h : Word) (c : Byte) (j : Fin 8) : Prop :=
  (s.slot j).valid = true ∧ ((s.slot j).handle = h ∨ (s.slot j).chan = c)

/-- Slot `j` is hit: valid, its source pending and enabled (60_exceptions.md R165). -/
def hit (s : State) (j : Fin 8) : Prop :=
  (s.slot j).valid = true ∧ s.pending (s.slot j).chan.toNat = true ∧ s.enabled (s.slot j).chan.toNat = true

/-- The next step is host flow `ctx`'s, the phase lets it run, and `a` is its next action. -/
def acts (s : State) (ctx : Context) (a : HostAction) : Prop :=
  s.nextAgent = .host ctx ∧ s.phase.context? = some ctx ∧ (s.flows.get ctx).todo.head? = some a

/-- `s` with the schedule's first entry and that action taken off their lists (log entries 1 and 2). -/
def taken (s : State) (ctx : Context) : State := s.popSched.popAction ctx

/-- Channel `c` exists, is pending and enabled, and no valid slot holds it (60_exceptions.md R168). -/
def orphan (s : State) (c : Nat) : Prop :=
  c < s.params.nDmaCh ∧ s.pending c = true ∧ s.enabled c = true ∧
    ∀ j : Fin 8, (s.slot j).valid = true → (s.slot j).chan.toNat ≠ c

/-- The registers of the window below the slots, with what each reads (10_state.md R21). -/
def windowTable (s : State) (ctx : Context) : List (Nat × Word) :=
  [(0x04, (s.banks.get ctx).argHandle), (0x08, (s.banks.get ctx).argFn), (0x0C, (s.banks.get ctx).argCtx),
   (0x10, (s.banks.get ctx).result), (0x14, s.statusWord), (0x18, s.srcEnWord), (0x1C, s.srcPendWord),
   (0x20, s.curFn), (0x24, s.curCtx), (0x28, s.curHandle)]

/-- A reserved offset, word-aligned (10_state.md R21). -/
def reservedOffset (off : Nat) : Prop := off % 4 = 0 ∧ (0x2C ≤ off ∧ off ≤ 0x3C ∨ 0x80 ≤ off ∧ off ≤ 0xFC)

/-- The offset of a read-only register, word-aligned (10_state.md R21). -/
def readOnlyOffset (off : Nat) : Prop := off % 4 = 0 ∧ (0x10 ≤ off ∧ off ≤ 0x28 ∨ 0x40 ≤ off ∧ off ≤ 0x7C)

/-- The next step is host flow `ctx`'s, and its next action writes a word to CMD that spells command `i`. -/
def issues (s : State) (ctx : Context) (i : Instr) : Prop :=
  ∃ w, acts s ctx (.write 0x00 4 w) ∧ decodeWord w = .ok i

end Sys2Proof.Claims

open Sys2Proof Sys2Proof.Machine Sys2Proof.Claims

/-! ### Encoding -/

/-- Decoding the word, or the bytes, of any command gives it back, with every CHAN operand (30_encoding.md R70, R73, R78;
20_memory.md R51). -/
def Obligations.DecodeOfEncodeIsIdentity : Prop :=
  ∀ (i : Instr) (rest : List Byte),
    decodeWord (encode i) = .ok i ∧ decodeBytes (wordBytes (encode i) ++ rest) = .ok (i, rest)

/-- A word spells a command exactly when its bits outside CHAN are the command's `match` and, for the three commands that
use CHAN, its CHAN field is the operand (30_encoding.md R73, R74). -/
def Obligations.WordSpellsCommandByMaskAndMatch : Prop :=
  ∀ (w : Word) (i : Instr),
    decodeWord w = .ok i ↔
      w &&& 0xFFFF00FF#32 = (opcode i).setWidth 32 ∧
        ∀ c : Byte, i = .srcEnable c ∨ i = .srcDisable c ∨ i = .srcAck c → c.toNat = w.toNat / 256 % 256

/-- The decoder refuses exactly the words with RSV ≠ 0 or OP in 0x0C to 0xFF (30_encoding.md R75). -/
def Obligations.DecoderRefusesExactlyIllegalWords : Prop :=
  ∀ w : Word,
    ((∃ e, decodeWord w = .error e) ↔ (w.toNat / 65536 ≠ 0 ∨ 12 ≤ w.toNat % 256)) ∧
    ((∃ i, decodeWord w = .ok i) ↔ legalWord w = true)

/-- Words written out from the spec's own examples (30_encoding.md R74, 41_install_and_sources.md R113 to R116,
43_callback_return.md R150). -/
def Obligations.SpecExampleWordsDecode : Prop :=
  decodeWord 0x00001202 = .ok .register ∧ decodeWord 0x00000408 = .ok (.srcEnable 4) ∧
  decodeWord 0x00000409 = .ok (.srcDisable 4) ∧ decodeWord 0x0000040A = .ok (.srcAck 4) ∧
  decodeWord 0x0000FF08 = .ok (.srcEnable 0xFF) ∧ decodeWord 0x0000000B = .ok .cbReturn ∧
  decodeWord 0x00000005 = .ok .setCallback ∧ decodeWord 0x0000000C = .error .reservedOpcode ∧
  decodeWord 0x0001000B = .error .reservedBits

/-! ### The step around a command -/

/-- A step is the next agent's, at the state with the schedule's entry taken off; a host flow's step is its next action, with
that taken off too (the schedule and the flows are the model's form: DESIGN CHOICE, log entries 1, 2). -/
def Obligations.StepRunsTheNextAgent : Prop :=
  (∀ s : State, step s = agentStep s.nextAgent s.popSched) ∧
  (∀ (s : State) (ctx : Context) (a : HostAction), acts s ctx a → step s = hostAction ctx a (taken s ctx)) ∧
  (∀ (s : State) (a : Agent) (rest : List Agent), s.sched = a :: rest → s.nextAgent = a) ∧
  (∀ s : State, s.sched = [] → s.phase = .idle → s.line = true → s.nextAgent = .dispatcher) ∧
  (∀ (s : State) (k : Fin 9), s.sched = [] → s.phase = .scan k → s.nextAgent = .dispatcher)

/-- When the next step is a host flow's and its next action writes a legal word to CMD, the step is `exec` of the decoded
command, at the state with the schedule's entry and the action taken off (10_state.md R25; log entries 1, 2). -/
def Obligations.StepRunsDecodedCommand : Prop :=
  ∀ (s : State) (ctx : Context) (w : Word) (i : Instr),
    acts s ctx (.write 0x00 4 w) → decodeWord w = .ok i → step s = exec i (taken s ctx)

/-- Placing a command makes the very next step run it, from every state (log entry 3: the model's own device). -/
def Obligations.PlacedCommandRunsNext : Prop :=
  ∀ (s : State) (w : Nat) (i : Instr), decodeTableWord 32 w = some i →
    step (s.withFetchWord 32 w) = exec i { s with phase := s.phase.fetchPhase }

/-- An illegal word written to CMD changes only RESULT, to E_ILLEGAL; every other word is a command (30_encoding.md R75). -/
def Obligations.IllegalWordWritesOnlyResult : Prop :=
  ∀ (s : State) (ctx : Context) (w : Word),
    ((w.toNat / 65536 ≠ 0 ∨ 12 ≤ w.toNat % 256) →
      hostAction ctx (.write 0x00 4 w) s = .next (withResult s ctx 0x0000FF06)) ∧
    (¬ (w.toNat / 65536 ≠ 0 ∨ 12 ≤ w.toNat % 256) →
      ∃ i, decodeWord w = .ok i ∧ hostAction ctx (.write 0x00 4 w) s = exec i s)

/-! ### Commands -/

/-- NOP writes RESULT and nothing else; it is the all-zero word (41_install_and_sources.md R110). -/
def Obligations.NopWritesOnlyResult : Prop :=
  decodeWord 0x00000000 = .ok .nop ∧
  ∀ (s : State) (ctx : Context), s.phase.context? = some ctx →
    exec .nop s = .next (withResult s ctx 0x0000FF00)

/-- INSTALL sets INSTALLED and RESULT and nothing else; no command and no agent's step but a reset clears INSTALLED
(41_install_and_sources.md R111). -/
def Obligations.InstallSetsInstalledForGood : Prop :=
  decodeWord 0x00000001 = .ok .install ∧
  (∀ (s : State) (ctx : Context), s.phase.context? = some ctx →
    exec .install s = .next (withResult { s with installed := true } ctx 0x0000FF00) ∧
    (s.installed = true → exec .install s = .next (withResult s ctx 0x0000FF00))) ∧
  (∀ (i : Instr) (s t : State), exec i s = .next t → s.installed = true → t.installed = true) ∧
  (∀ (a : Agent) (s t : State), agentStep a s = .next t → s.installed = true →
    t.installed = true ∨ (a = .platform ∧ t.installed = false))

/-- SRC_ENABLE: its word, its invalid channels, and for an existing channel its enable bit and RESULT and nothing else, in
either context, registered or not; with the source pending and the handler installed, LINE is 1 at once
(41_install_and_sources.md R113). -/
def Obligations.SrcEnableSetsEnableBit : Prop :=
  ∀ (s : State) (ctx : Context) (c : Byte), s.phase.context? = some ctx → s.params.wellFormed = true →
    decodeWord (BitVec.ofNat 32 (c.toNat * 256 + 0x08)) = .ok (.srcEnable c) ∧
    (s.params.nDmaCh ≤ c.toNat → exec (.srcEnable c) s = .next (withResult s ctx 0x0000FF02)) ∧
    (c.toNat < s.params.nDmaCh →
      ∃ t, exec (.srcEnable c) s = .next t ∧ t = withResult { s with en := t.en } ctx 0x0000FF00 ∧
        (∀ d, t.enabled d = (s.enabled d || d == c.toNat)) ∧
        (s.enabled c.toNat = true → t = withResult s ctx 0x0000FF00) ∧
        (s.pending c.toNat = true → s.installed = true → t.line = true))

/-- SRC_DISABLE: its word, its invalid channels, and for an existing channel its enable bit and RESULT and nothing else (the
pending bit is kept); after it no slot with that channel is hit (41_install_and_sources.md R114). -/
def Obligations.SrcDisableClearsEnableBit : Prop :=
  ∀ (s : State) (ctx : Context) (c : Byte), s.phase.context? = some ctx → s.params.wellFormed = true →
    decodeWord (BitVec.ofNat 32 (c.toNat * 256 + 0x09)) = .ok (.srcDisable c) ∧
    (s.params.nDmaCh ≤ c.toNat → exec (.srcDisable c) s = .next (withResult s ctx 0x0000FF02)) ∧
    (c.toNat < s.params.nDmaCh →
      ∃ t, exec (.srcDisable c) s = .next t ∧ t = withResult { s with en := t.en } ctx 0x0000FF00 ∧
        (∀ d, t.enabled d = (s.enabled d && d != c.toNat)) ∧
        (∀ j : Fin 8, (t.slot j).chan = c → t.isHit j = false))

/-- SRC_ACK: its word, its invalid channels, and for an existing channel its pending bit and RESULT and nothing else: no busy
flag, no callback (41_install_and_sources.md R115). -/
def Obligations.SrcAckClearsPendingBit : Prop :=
  ∀ (s : State) (ctx : Context) (c : Byte), s.phase.context? = some ctx → s.params.wellFormed = true →
    decodeWord (BitVec.ofNat 32 (c.toNat * 256 + 0x0A)) = .ok (.srcAck c) ∧
    (s.params.nDmaCh ≤ c.toNat → exec (.srcAck c) s = .next (withResult s ctx 0x0000FF02)) ∧
    (c.toNat < s.params.nDmaCh →
      ∃ t, exec (.srcAck c) s = .next t ∧ t = withResult { s with pend := t.pend } ctx 0x0000FF00 ∧
        (∀ d, t.pending d = (s.pending d && d != c.toNat)) ∧
        (s.pending c.toNat = false → t = withResult s ctx 0x0000FF00))

/-- A channel value that names no source gives E_INVALID_CHANNEL and changes nothing else (41_install_and_sources.md R116). -/
def Obligations.InvalidChannelChangesOnlyResult : Prop :=
  ∀ (s : State) (ctx : Context) (c : Byte), s.phase.context? = some ctx → s.params.nDmaCh ≤ c.toNat →
    exec (.srcEnable c) s = .next (withResult s ctx 0x0000FF02) ∧
    exec (.srcDisable c) s = .next (withResult s ctx 0x0000FF02) ∧
    exec (.srcAck c) s = .next (withResult s ctx 0x0000FF02)

/-- REGISTER, every check in its order and every outcome (40_registry.md R91). -/
def Obligations.RegisterFollowsItsRule : Prop :=
  decodeWord 0x00000002 = .ok .register ∧
  (∀ s : State, s.phase = .idle →
    (s.record? s.banks.main.argHandle = none →
      ∃ t, exec .register s = .next t ∧ recordsOnly s t (.danglingHandle s.banks.main.argHandle)) ∧
    ∀ r, s.record? s.banks.main.argHandle = some r →
      (s.params.nDmaCh ≤ r.chan.toNat → exec .register s = .next (withResult s .main 0x0000FF02)) ∧
      (r.chan.toNat < s.params.nDmaCh →
        (∀ j, holdsEither s s.banks.main.argHandle r.chan j →
          (∀ k < j, ¬ holdsEither s s.banks.main.argHandle r.chan k) →
          exec .register s = .next (withResult s .main (resultOf 0x03 j.val 0))) ∧
        ((∀ j, ¬ holdsEither s s.banks.main.argHandle r.chan j) →
          (s.enabled r.chan.toNat = true → exec .register s = .next (withResult s .main 0x0000FF04)) ∧
          (s.enabled r.chan.toNat = false →
            ((∀ k, (s.slot (tableIndex r.dir k)).valid = true) →
              exec .register s = .next (withResult s .main 0x0000FF01)) ∧
            (∀ k, (s.slot (tableIndex r.dir k)).valid = false →
              (∀ l < k, (s.slot (tableIndex r.dir l)).valid = true) →
              exec .register s = .next (withResult
                (withSlot s (tableIndex r.dir k)
                  { valid := true, handle := s.banks.main.argHandle, chan := r.chan })
                .main (resultOf 0x00 (tableIndex r.dir k).val 0))))))) ∧
  (∀ (s : State) (i : Fin 8), s.phase = .inCallback i →
    exec .register s = .next (withResult s .irq 0x0000FF07))

/-- UNREGISTER, every outcome; the slots' handles are distinct (10_state.md R28 (b)), so the matching slot is one
(40_registry.md R97). -/
def Obligations.UnregisterFollowsItsRule : Prop :=
  decodeWord 0x00000003 = .ok .unregister ∧
  (∀ s : State, s.phase = .idle → s.SlotsDistinct →
    (∀ j, holdsHandle s s.banks.main.argHandle j →
      (s.enabled (s.slot j).chan.toNat = true →
        exec .unregister s = .next (withResult s .main (resultOf 0x04 j.val 0))) ∧
      (s.enabled (s.slot j).chan.toNat = false →
        exec .unregister s = .next (withResult
          (withSlot s j { valid := false, handle := 0x00000000, chan := 0xFF })
          .main (resultOf 0x00 j.val 0)))) ∧
    ((∀ j, ¬ holdsHandle s s.banks.main.argHandle j) →
      exec .unregister s = .next (withResult s .main 0x0000FF00))) ∧
  (∀ (s : State) (i : Fin 8), s.phase = .inCallback i →
    exec .unregister s = .next (withResult s .irq 0x0000FF07))

/-- QUERY reports slot, BUSY, CB_SET and DIR in RESULT and writes nothing else, in either context; a dangling handle is
recorded (40_registry.md R100, 10_state.md R24). -/
def Obligations.QueryReportsTheRecord : Prop :=
  decodeWord 0x00000004 = .ok .query ∧
  ∀ (s : State) (ctx : Context), s.phase.context? = some ctx →
    (s.record? (s.banks.get ctx).argHandle = none →
      ∃ t, exec .query s = .next t ∧ recordsOnly s t (.danglingHandle (s.banks.get ctx).argHandle)) ∧
    ∀ r, s.record? (s.banks.get ctx).argHandle = some r → ∃ w : Word,
      exec .query s = .next (withResult s ctx w) ∧ w.toNat % 256 = 0x00 ∧
      (∀ j, holdsHandle s (s.banks.get ctx).argHandle j →
        (∀ k < j, ¬ holdsHandle s (s.banks.get ctx).argHandle k) → w.toNat / 256 % 256 = j.val) ∧
      ((∀ j, ¬ holdsHandle s (s.banks.get ctx).argHandle j) → w.toNat / 256 % 256 = 0xFF) ∧
      w.getLsbD 16 = r.busy ∧ w.getLsbD 17 = decide (r.cb ≠ 0) ∧ w.getLsbD 18 = decide (r.dir = .rx) ∧
      w.toNat / 2 ^ 19 = 0

/-- SET_CALLBACK writes function and context of the record in one step, and RESULT, and nothing else; a dangling handle
is recorded and nothing is written (42_instance.md R130). -/
def Obligations.SetCallbackWritesFunctionAndContext : Prop :=
  decodeWord 0x00000005 = .ok .setCallback ∧
  ∀ (s : State) (ctx : Context), s.phase.context? = some ctx →
    (s.record? (s.banks.get ctx).argHandle = none →
      ∃ t, exec .setCallback s = .next t ∧ recordsOnly s t (.danglingHandle (s.banks.get ctx).argHandle)) ∧
    ∀ r, s.record? (s.banks.get ctx).argHandle = some r → ∃ t,
      exec .setCallback s = .next t ∧ t = withResult { s with store := t.store } ctx 0x0000FF00 ∧
      t.record? (s.banks.get ctx).argHandle =
        some { r with cb := (s.banks.get ctx).argFn, ctx := (s.banks.get ctx).argCtx } ∧
      ∀ k, k ≠ (s.banks.get ctx).argHandle → t.record? k = s.record? k

/-- BUSY_SET sets the busy flag of a record that is not busy, is refused with E_BUSY otherwise, and records a dangling
handle; nothing else changes (42_instance.md R134). -/
def Obligations.BusySetRejectsStartWhileBusy : Prop :=
  decodeWord 0x00000006 = .ok .busySet ∧
  ∀ (s : State) (ctx : Context), s.phase.context? = some ctx →
    (s.record? (s.banks.get ctx).argHandle = none →
      ∃ t, exec .busySet s = .next t ∧ recordsOnly s t (.danglingHandle (s.banks.get ctx).argHandle)) ∧
    ∀ r, s.record? (s.banks.get ctx).argHandle = some r →
      (r.busy = true → exec .busySet s = .next (withResult s ctx 0x0000FF05)) ∧
      (r.busy = false → ∃ t,
        exec .busySet s = .next t ∧ t = withResult { s with store := t.store } ctx 0x0000FF00 ∧
        t.record? (s.banks.get ctx).argHandle = some { r with busy := true } ∧
        ∀ k, k ≠ (s.banks.get ctx).argHandle → t.record? k = s.record? k)

/-- BUSY_CLEAR clears the busy flag of a record and writes RESULT and nothing else (neither `pend` nor `en`); a dangling
handle is recorded (42_instance.md R138). -/
def Obligations.BusyClearClearsBusy : Prop :=
  decodeWord 0x00000007 = .ok .busyClear ∧
  ∀ (s : State) (ctx : Context), s.phase.context? = some ctx →
    (s.record? (s.banks.get ctx).argHandle = none →
      ∃ t, exec .busyClear s = .next t ∧ recordsOnly s t (.danglingHandle (s.banks.get ctx).argHandle)) ∧
    ∀ r, s.record? (s.banks.get ctx).argHandle = some r → ∃ t,
      exec .busyClear s = .next t ∧ t = withResult { s with store := t.store } ctx 0x0000FF00 ∧
      t.record? (s.banks.get ctx).argHandle = some { r with busy := false } ∧
      ∀ k, k ≠ (s.banks.get ctx).argHandle → t.record? k = s.record? k

/-- CB_RETURN in `InCallback(i)` writes `bank[IRQ].RESULT`, clears the latch and moves the scan to the next slot, nothing
else, and leaves no host context; from MAIN it is E_CONTEXT (43_callback_return.md R150). -/
def Obligations.CbReturnResumesTheScan : Prop :=
  decodeWord 0x0000000B = .ok .cbReturn ∧
  (∀ (s : State) (i : Fin 8), s.phase = .inCallback i →
    ∃ t, exec .cbReturn s = .next t ∧
      t = withResult { s with curFn := 0, curCtx := 0, curHandle := 0, phase := .scan i.succ } .irq
        (resultOf 0x00 i.val 0) ∧
      t.phase.context? = none) ∧
  (∀ s : State, s.phase = .idle → exec .cbReturn s = .next (withResult s .main 0x0000FF07))

/-- Every command answers a next state in every host context, and `exec` has no meaning only in `Scan(i)`, where no host
access exists (10_state.md R22; that it is a refusal there is the model's choice, log entry 7). -/
def Obligations.CommandsCompleteInEveryHostContext : Prop :=
  ∀ (i : Instr) (s : State),
    (∀ ctx, s.phase.context? = some ctx → ∃ t, exec i s = .next t) ∧
    (∀ k, s.phase = .scan k → exec i s = .refused .noHostContext)

/-- A command not allowed in its context changes only RESULT, to E_CONTEXT; the others never report E_CONTEXT; register reads
and ARG writes have their effect in both contexts (60_exceptions.md R177). -/
def Obligations.ContextTableIsObeyed : Prop :=
  (∀ (s : State) (k : Fin 8), s.phase = .inCallback k →
    exec .register s = .next (withResult s .irq 0x0000FF07) ∧
    exec .unregister s = .next (withResult s .irq 0x0000FF07)) ∧
  (∀ s : State, s.phase = .idle → exec .cbReturn s = .next (withResult s .main 0x0000FF07)) ∧
  (∀ (i : Instr) (s : State) (ctx : Context), s.phase.context? = some ctx →
    (ctx = .irq → i ≠ .register ∧ i ≠ .unregister) → (ctx = .main → i ≠ .cbReturn) →
    ∃ t, exec i s = .next t ∧
      (t.banks = s.banks ∨ (t.banks.get ctx).result.toNat % 256 ≠ 0x07)) ∧
  (∀ (s : State) (ctx : Context) (off : Byte) (v : Word), off.toNat % 4 = 0 →
    (∃ w, hostAction ctx (.read off 4) s = .next (returned s ctx w)) ∧
    (off = 0x04 ∨ off = 0x08 ∨ off = 0x0C →
      ∃ t, hostAction ctx (.write off 4 v) s = .next t ∧ t.readReg ctx (windowReg off) = v))

/-- A failing command (a status other than OK) changes nothing but RESULT, and a faulting one changes nothing but the
fault set (30_encoding.md R76, 60_exceptions.md R160, R161). -/
def Obligations.FailingCommandsChangeNothingElse : Prop :=
  ∀ (i : Instr) (s t : State) (ctx : Context), s.phase.context? = some ctx → exec i s = .next t →
    (t.faults ≠ s.faults → t = { s with faults := t.faults }) ∧
    (t.banks ≠ s.banks → (t.banks.get ctx).result.toNat % 256 ≠ 0x00 →
      t = withResult s ctx (t.banks.get ctx).result)

/-- A command writes RESULT of its own context only, and no operand register of either (10_state.md R23, 30_encoding.md
R71). -/
def Obligations.CommandsKeepOperandsAndOtherBank : Prop :=
  ∀ (i : Instr) (s t : State) (ctx : Context), s.phase.context? = some ctx → exec i s = .next t →
    (∀ other, other ≠ ctx → t.banks.get other = s.banks.get other) ∧
    (t.banks.get ctx).argHandle = (s.banks.get ctx).argHandle ∧
    (t.banks.get ctx).argFn = (s.banks.get ctx).argFn ∧ (t.banks.get ctx).argCtx = (s.banks.get ctx).argCtx

/-! ### The window -/

/-- A proper read returns the register's value and changes nothing in the CDRA, register by register (10_state.md R21, R23,
R25, R41; the flow's field that takes the value is log entry 2). -/
def Obligations.WindowReadReturnsTheRegister : Prop :=
  ∀ (s : State) (ctx : Context) (off : Byte), off.toNat % 4 = 0 →
    ∃ v, hostAction ctx (.read off 4) s = .next (returned s ctx v) ∧
      (∀ w, (off.toNat, w) ∈ windowTable s ctx → v = w) ∧
      (∀ n : Fin 8, off.toNat = 0x40 + 8 * n.val → v = s.slotInfoWord n) ∧
      (∀ n : Fin 8, off.toNat = 0x44 + 8 * n.val → v = (s.slot n).handle) ∧
      (off.toNat = 0x00 ∨ reservedOffset off.toNat → v = 0)

/-- A read or write that is not 32 bits wide or not aligned records `F_BUS` with its address and size and has no other
effect on the CDRA; the read returns 0 (20_memory.md R52). -/
def Obligations.ImproperAccessRecordsBusFault : Prop :=
  ∀ (s : State) (ctx : Context) (off : Byte) (size : Nat),
    (size ≠ 4 ∨ (s.params.blockBase + off.setWidth 32).toNat % 4 ≠ 0) →
    (∀ v, ∃ t, hostAction ctx (.write off size v) s = .next t ∧
      recordsOnly s t (.bus (s.params.blockBase + off.setWidth 32) size)) ∧
    (∃ t, hostAction ctx (.read off size) s = .next t ∧
      recordsOnly (returned s ctx 0) t (.bus (s.params.blockBase + off.setWidth 32) size))

/-- Reserved offsets and CMD read 0; writes to reserved offsets and read-only registers are ignored (20_memory.md R53). -/
def Obligations.ReservedAndReadOnlyWritesAreIgnored : Prop :=
  ∀ (s : State) (ctx : Context) (off : Byte),
    (∀ v, reservedOffset off.toNat ∨ readOnlyOffset off.toNat → hostAction ctx (.write off 4 v) s = .next s) ∧
    (reservedOffset off.toNat ∨ off.toNat = 0x00 → hostAction ctx (.read off 4) s = .next (returned s ctx 0))

/-- A write to CMD executes its command; a write to an ARG register stores the value in the writer's own bank and does
nothing else; a read changes nothing in the CDRA, and a second read returns the same (20_memory.md R54). -/
def Obligations.AccessSideEffects : Prop :=
  (∀ (s : State) (ctx : Context) (w : Word) (i : Instr), decodeWord w = .ok i →
    hostAction ctx (.write 0x00 4 w) s = exec i s) ∧
  (∀ (s : State) (ctx : Context) (v : Word),
    hostAction ctx (.write 0x04 4 v) s =
      .next { s with banks := s.banks.set ctx { s.banks.get ctx with argHandle := v } } ∧
    hostAction ctx (.write 0x08 4 v) s =
      .next { s with banks := s.banks.set ctx { s.banks.get ctx with argFn := v } } ∧
    hostAction ctx (.write 0x0C 4 v) s =
      .next { s with banks := s.banks.set ctx { s.banks.get ctx with argCtx := v } }) ∧
  (∀ (s : State) (ctx : Context) (off : Byte), off.toNat % 4 = 0 →
    ∃ v, hostAction ctx (.read off 4) s = .next (returned s ctx v) ∧
      hostAction ctx (.read off 4) (returned s ctx v) = .next (returned s ctx v))

/-- STATUS, field by field, at its reset value too (10_state.md R38). -/
def Obligations.StatusRegisterFields : Prop :=
  (∀ (s : State) (ctx : Context) (w : Word), w = s.readReg ctx (windowReg 0x14) →
    w.getLsbD 0 = s.installed ∧ w.getLsbD 1 = s.line ∧ (w.getLsbD 2 = true ↔ s.phase ≠ .idle) ∧
    (w.getLsbD 3 = true ↔ ∃ i, s.phase = .inCallback i) ∧
    (s.phase = .idle → w.toNat / 16 % 16 = 0) ∧
    (∀ i, s.phase = .scan i → w.toNat / 16 % 16 = i.val) ∧
    (∀ i, s.phase = .inCallback i → w.toNat / 16 % 16 = i.val) ∧
    w.toNat / 256 % 8 = (Finset.univ.filter fun j : Fin 8 => j.val < 4 ∧ (s.slot j).valid = true).card ∧
    w.getLsbD 11 = false ∧
    w.toNat / 4096 % 8 = (Finset.univ.filter fun j : Fin 8 => 4 ≤ j.val ∧ (s.slot j).valid = true).card ∧
    w.toNat / 2 ^ 15 = 0 ∧
    (s.phase.context? = some .main → w.getLsbD 2 = false) ∧
    (s.phase.context? = some .irq → w.getLsbD 2 = true ∧ w.getLsbD 3 = true) ∧
    ∀ v, writeReg s ctx v (windowReg 0x14) = .next s) ∧
  (∀ ctx : Context, State.reset.readReg ctx (windowReg 0x14) = 0x00000000)

/-- SRC_EN and SRC_PEND show one bit per existing channel, 0 above (10_state.md R39). -/
def Obligations.SourceMaskRegisters : Prop :=
  (∀ (s : State) (ctx : Context) (c : Nat),
    (s.readReg ctx (windowReg 0x18)).getLsbD c = (decide (c < s.params.nDmaCh) && s.enabled c) ∧
    (s.readReg ctx (windowReg 0x1C)).getLsbD c = (decide (c < s.params.nDmaCh) && s.pending c)) ∧
  (∀ (s : State) (ctx : Context) (v : Word),
    writeReg s ctx v (windowReg 0x18) = .next s ∧ writeReg s ctx v (windowReg 0x1C) = .next s ∧
    ∀ off : Byte, off = 0x18 ∨ off = 0x1C → (busRead s ctx off 4).pend = s.pend ∧ (busRead s ctx off 4).en = s.en) ∧
  (∀ ctx : Context, State.reset.readReg ctx (windowReg 0x18) = 0 ∧ State.reset.readReg ctx (windowReg 0x1C) = 0)

/-- SLOTn_INFO and SLOTn_HANDLE show slot `n`, are read-only, and have their reset values (10_state.md R40). -/
def Obligations.SlotRegistersShowTheSlot : Prop :=
  (∀ (s : State) (ctx : Context) (n : Fin 8),
    s.readReg ctx (windowReg (BitVec.ofNat 8 (0x40 + 8 * n.val))) =
      BitVec.ofNat 32 ((s.slot n).chan.toNat * 256 + (s.slot n).valid.toNat) ∧
    s.readReg ctx (windowReg (BitVec.ofNat 8 (0x44 + 8 * n.val))) = (s.slot n).handle ∧
    ∀ v, writeReg s ctx v (windowReg (BitVec.ofNat 8 (0x40 + 8 * n.val))) = .next s ∧
      writeReg s ctx v (windowReg (BitVec.ofNat 8 (0x44 + 8 * n.val))) = .next s) ∧
  (∀ (ctx : Context) (n : Fin 8),
    State.reset.readReg ctx (windowReg (BitVec.ofNat 8 (0x40 + 8 * n.val))) = 0x0000FF00 ∧
    State.reset.readReg ctx (windowReg (BitVec.ofNat 8 (0x44 + 8 * n.val))) = 0x00000000)

/-! ### The line and the Dispatcher -/

/-- LINE is 1 exactly when installed and some existing source is pending and enabled, and it drives input IRQ_LINE only
(10_state.md R32). -/
def Obligations.LineIsInstalledAndSomeSource : Prop :=
  ∀ s : State,
    (s.line = true ↔ s.installed = true ∧ ∃ c < s.params.nDmaCh, s.pending c = true ∧ s.enabled c = true) ∧
    ∀ k, s.hostInterrupt k = true ↔ k = s.params.irqLine ∧ s.line = true

/-- The entry step: the Dispatcher does something in Idle iff LINE = 1, namely the phase becomes Scan(0) and nothing else
changes; outside Idle the main flow does nothing (60_exceptions.md R164). That an agent whose step is not enabled (the
Dispatcher with LINE = 0, Host-main outside Idle) answers the same state is the model's choice: DESIGN CHOICE, log entry 1. -/
def Obligations.EntryStepOnlyMovesThePhase : Prop :=
  (∀ s : State, s.phase = .idle → s.line = true →
    agentStep .dispatcher s = .next { s with phase := .scan 0 }) ∧
  (∀ s : State, s.phase = .idle → (agentStep .dispatcher s ≠ .next s ↔ s.line = true)) ∧
  (∀ s : State, s.phase ≠ .idle → agentStep (.host .main) s = .next s)

/-- An agent whose step is not enabled changes nothing: Host-main outside Idle, Host-irq outside InCallback, the Dispatcher in
InCallback and in Idle with LINE = 0, a DMA channel that is not armed (that it stays in place is the model's form: DESIGN
CHOICE, log entry 1). -/
def Obligations.DisabledAgentsChangeNothing : Prop :=
  ∀ s : State,
    (s.phase ≠ .idle → agentStep (.host .main) s = .next s) ∧
    ((∀ i, s.phase ≠ .inCallback i) → agentStep (.host .irq) s = .next s) ∧
    ((∃ i, s.phase = .inCallback i) ∨ (s.phase = .idle ∧ s.line = false) → agentStep .dispatcher s = .next s) ∧
    (∀ c, s.isArmed c = false ∨ s.params.nDmaCh ≤ c → agentStep (.dma c) s = .next s)

/-- The scan step, every case: no hit, a dangling handle, a hit without and with a callback (60_exceptions.md R165). -/
def Obligations.ScanStepFollowsItsRule : Prop :=
  ∀ (s : State) (k : Fin 8), s.phase = .scan k.castSucc →
    (¬ hit s k → agentStep .dispatcher s = .next { s with phase := .scan k.succ }) ∧
    (hit s k → s.record? (s.slot k).handle = none →
      ∃ t, agentStep .dispatcher s = .next t ∧
        recordsOnly { s with phase := .scan k.succ } t (.danglingHandle (s.slot k).handle)) ∧
    (∀ r, hit s k → s.record? (s.slot k).handle = some r →
      ∃ t, agentStep .dispatcher s = .next t ∧
        (∀ d, t.pending d = (s.pending d && d != (s.slot k).chan.toNat)) ∧
        t.record? (s.slot k).handle = some { r with busy := false } ∧
        (∀ h, h ≠ (s.slot k).handle → t.record? h = s.record? h) ∧
        (r.cb = 0 → t = { s with pend := t.pend, store := t.store, phase := .scan k.succ }) ∧
        (r.cb ≠ 0 → t = { s with
          pend := t.pend, store := t.store, phase := .inCallback k, curFn := r.cb, curCtx := r.ctx,
          curHandle := (s.slot k).handle }))

/-- The exit step: the least orphan source is recorded, the phase becomes Idle, nothing else changes
(60_exceptions.md R168). -/
def Obligations.ExitStepRecordsTheOrphan : Prop :=
  ∀ s : State, s.phase = .scan (Fin.last 8) →
    (∀ c, s.installed = true → orphan s c → (∀ d < c, ¬ orphan s d) →
      ∃ t, agentStep .dispatcher s = .next t ∧ recordsOnly { s with phase := .idle } t (.orphanSource c)) ∧
    ((s.installed = false ∨ ∀ c, ¬ orphan s c) → agentStep .dispatcher s = .next { s with phase := .idle })

/-- Every change of phase is a move of the dispatch cycle, by the agent that may make it; so dispatches never nest and the
scan index grows by one (10_state.md R33, 60_exceptions.md R172, R191, 43_callback_return.md R151). -/
def Obligations.PhaseMovesAreTheDispatchCycle : Prop :=
  ∀ s t : State, step s = .next t → t.phase ≠ s.phase →
    (s.nextAgent = .platform ∧ t.phase = .idle) ∨
    (s.nextAgent = .dispatcher ∧
      ((s.phase = .idle ∧ s.line = true ∧ t.phase = .scan 0) ∨
       (∃ k : Fin 8, s.phase = .scan k.castSucc ∧ (t.phase = .scan k.succ ∨ (hit s k ∧ t.phase = .inCallback k))) ∨
       (s.phase = .scan (Fin.last 8) ∧ t.phase = .idle))) ∨
    (issues s .irq .cbReturn ∧ ∃ k, s.phase = .inCallback k ∧ t.phase = .scan k.succ)

/-- A dispatch whose slots' instances have no callback is ten Dispatcher steps: entry, eight scan steps, exit; it serves
every hit slot whose instance is live, and touches no other record, no slot and no enable bit (60_exceptions.md R166). That
the Dispatcher is next ten times is assumed through the schedule, which is the model's: DESIGN CHOICE, log entry 1. -/
def Obligations.DispatchWithoutCallbacksIsTenSteps : Prop :=
  ∀ s : State, s.phase = .idle → s.line = true → s.sched = List.replicate 10 .dispatcher → s.SlotsDistinct →
    (∀ j r, (s.slot j).valid = true → s.record? (s.slot j).handle = some r → r.cb = 0) →
    ∃ t, Host.Core.run Sys2Proof.core 10 s = .next t ∧ t.phase = .idle ∧ t.slots = s.slots ∧ t.en = s.en ∧
      (∀ j r, hit s j → s.record? (s.slot j).handle = some r →
        t.pending (s.slot j).chan.toNat = false ∧ t.record? (s.slot j).handle = some { r with busy := false }) ∧
      (∀ h, (∀ j, hit s j → (s.slot j).handle ≠ h) → t.record? h = s.record? h)

/-! ### DMA and the instance store -/

/-- `dma_arm` and the completion event, which happens iff the channel is armed (60_exceptions.md R186). That the step of a
channel that is not armed answers the same state is the model's choice: DESIGN CHOICE, log entry 1. -/
def Obligations.DmaArmAndCompletion : Prop :=
  ∀ (s : State) (c : Nat), s.params.wellFormed = true → c < s.params.nDmaCh →
    (∀ ctx, s.isArmed c = false → ∃ t, hostAction ctx (.dmaArm c) s = .next t ∧ t = { s with armed := t.armed } ∧
      ∀ d, t.isArmed d = (s.isArmed d || d == c)) ∧
    (∀ ctx, s.isArmed c = true → ∃ t, hostAction ctx (.dmaArm c) s = .next t ∧ recordsOnly s t (.dmaContract c)) ∧
    (s.isArmed c = true → ∃ t, agentStep (.dma c) s = .next t ∧ t = { s with armed := t.armed, pend := t.pend } ∧
      (∀ d, t.isArmed d = (s.isArmed d && d != c)) ∧ ∀ d, t.pending d = (s.pending d || d == c)) ∧
    (agentStep (.dma c) s ≠ .next s ↔ s.isArmed c = true)

/-- `dma_abort` under each ABORT_COMPLETION (60_exceptions.md R187). Under EITHER the draw is left open. -/
def Obligations.DmaAbortRaisesAsConfigured : Prop :=
  ∀ (s : State) (c : Nat) (ctx : Context), s.params.wellFormed = true → c < s.params.nDmaCh →
    (s.isArmed c = false → hostAction ctx (.dmaAbort c) s = .next s) ∧
    (s.isArmed c = true → ∃ t, ∃ raised : Bool, hostAction ctx (.dmaAbort c) s = .next t ∧
      t = { s with armed := t.armed, pend := t.pend, draws := t.draws } ∧
      (∀ d, t.isArmed d = (s.isArmed d && d != c)) ∧
      (∀ d, t.pending d = (s.pending d || (raised && d == c))) ∧
      (s.params.abortCompletion = .never → raised = false) ∧
      (s.params.abortCompletion = .always → raised = true))

/-- Under EITHER the completion is raised iff the free value at the draw counter says so, and the counter moves on, so the
next draw is a fresh one (the free value and its counter are the model's: DESIGN CHOICE, log entry 5). -/
def Obligations.EitherAbortTakesAFreshDraw : Prop :=
  ∀ (s t : State) (c : Nat) (ctx : Context), s.params.wellFormed = true → c < s.params.nDmaCh →
    s.params.abortCompletion = .either → hostAction ctx (.dmaAbort c) s = .next t →
    (s.isArmed c = true → t.draws = s.draws + 1 ∧ t.pending c = (s.pending c || Config.abortDraw s.draws)) ∧
    (s.isArmed c = false → t.draws = s.draws)

/-- The host creates a record with busy 0 and no callback, and destroys one; no other record changes (10_state.md R36,
R37; what the model does outside the host's contract is log entry 9). -/
def Obligations.HostCreatesAndDestroysRecords : Prop :=
  ∀ (s : State) (ctx : Context) (h : Word), Store.wf s.store →
    (∀ d c, h ≠ 0 → s.record? h = none →
      ∃ t, hostAction ctx (.create h d c) s = .next t ∧ t = { s with store := t.store } ∧
        t.record? h = some { dir := d, chan := c, busy := false, cb := 0, ctx := 0 } ∧
        ∀ k, k ≠ h → t.record? k = s.record? k) ∧
    (∀ r, s.record? h = some r →
      ∃ t, hostAction ctx (.destroy h) s = .next t ∧ t = { s with store := t.store } ∧ t.record? h = none ∧
        ∀ k, k ≠ h → t.record? k = s.record? k)

/-- The host reads the fields of its own records, and the busy flag a hit clears reads 0 at the very next read, from either
context (20_memory.md R50, R63). What a read of a handle that is not live does is the model's choice: DESIGN CHOICE, log
entry 21; the flow's field that takes the value is log entry 2. -/
def Obligations.HostReadsItsRecords : Prop :=
  (∀ (s : State) (ctx : Context) (h : Word) (r : Record), s.record? h = some r →
    hostAction ctx (.readRecord h .dir) s = .next (returned s ctx (if r.dir = .rx then 1 else 0)) ∧
    hostAction ctx (.readRecord h .chan) s = .next (returned s ctx (BitVec.ofNat 32 r.chan.toNat)) ∧
    hostAction ctx (.readRecord h .busy) s = .next (returned s ctx (if r.busy then 1 else 0)) ∧
    hostAction ctx (.readRecord h .cb) s = .next (returned s ctx r.cb) ∧
    hostAction ctx (.readRecord h .ctx) s = .next (returned s ctx r.ctx)) ∧
  (∀ (s : State) (ctx : Context) (h : Word) (f : RecordField), s.record? h = none →
    ∃ t, hostAction ctx (.readRecord h f) s = .next t ∧ recordsOnly (returned s ctx 0) t (.danglingHandle h)) ∧
  (∀ (s t : State) (k : Fin 8) (r : Record) (ctx : Context), s.phase = .scan k.castSucc → hit s k →
    s.record? (s.slot k).handle = some r → agentStep .dispatcher s = .next t →
    hostAction ctx (.readRecord (s.slot k).handle .busy) t = .next (returned t ctx 0))

/-- The engine operations, part by part, with their decisions, early returns and return values; the channel is the record's
own (30_encoding.md R79). That a flow holds its coming actions as a list is log entry 2; that an operation on a handle that is
not live ends there is log entry 21. Both are DESIGN CHOICE. -/
def Obligations.EngineSequencesFollowTheirRule : Prop :=
  (∀ (s : State) (ctx : Context) (h : Word), s.record? h = none →
    ∀ a ∈ [HostAction.engineInit h, .engineAbort h, .engineDeinit h],
      ∃ t, hostAction ctx a s = .next t ∧ recordsOnly s t (.danglingHandle h)) ∧
  (∀ (s : State) (ctx : Context) (h : Word) (r : Record), s.record? h = some r →
    (r.chan = 0xFF → hostAction ctx (.engineInit h) s = .next (queued s ctx [.giveAnswer .resourceExhausted])) ∧
    (r.chan ≠ 0xFF → hostAction ctx (.engineInit h) s = .next (queued s ctx
      [.write 0x04 4 h, .write 0x00 4 0x00000002, .read 0x10 4, .initDecides r.chan])) ∧
    hostAction ctx (.engineAbort h) s = .next (queued s ctx
      [.write 0x00 4 (chanWord r.chan 0x09), .dmaAbort r.chan.toNat, .write 0x04 4 h, .write 0x00 4 0x00000007,
        .write 0x00 4 (chanWord r.chan 0x0A), .write 0x00 4 (chanWord r.chan 0x08), .giveAnswer .noValue]) ∧
    hostAction ctx (.engineDeinit h) s = .next (queued s ctx
      [.write 0x00 4 (chanWord r.chan 0x09), .dmaAbort r.chan.toNat, .write 0x04 4 h, .write 0x00 4 0x00000007,
        .releaseChannel r.chan.toNat, .compute, .write 0x04 4 h, .write 0x00 4 0x00000003,
        .write 0x00 4 (chanWord r.chan 0x0A), .giveAnswer .noValue])) ∧
  (∀ (s : State) (ctx : Context) (c : Byte),
    ((s.flows.get ctx).readData.toNat % 256 = 0 → hostAction ctx (.initDecides c) s = .next (queued s ctx
      [.write 0x00 4 (chanWord c 0x0A), .write 0x00 4 0x00000001, .write 0x00 4 (chanWord c 0x08),
        .giveAnswer (.status 0)])) ∧
    ((s.flows.get ctx).readData.toNat % 256 ≠ 0 → hostAction ctx (.initDecides c) s = .next (queued s ctx
      [.releaseChannel c.toNat, .giveAnswer (.status (BitVec.ofNat 8 (s.flows.get ctx).readData.toNat))]))) ∧
  (∀ (s : State) (ctx : Context) (h : Word) (len : Nat),
    (len = 0 → hostAction ctx (.engineStart h len) s = .next (queued s ctx [.giveAnswer .noValue])) ∧
    (len ≠ 0 → hostAction ctx (.engineStart h len) s = .next (queued s ctx
      [.write 0x04 4 h, .write 0x00 4 0x00000006, .read 0x10 4, .startDecides h])) ∧
    ((s.flows.get ctx).readData.toNat % 256 ≠ 0 → hostAction ctx (.startDecides h) s = .next (queued s ctx
      [.giveAnswer (.status (BitVec.ofNat 8 (s.flows.get ctx).readData.toNat))])) ∧
    ∀ r, (s.flows.get ctx).readData.toNat % 256 = 0 → s.record? h = some r →
      hostAction ctx (.startDecides h) s = .next (queued s ctx [.dmaArm r.chan.toNat, .giveAnswer .noValue])) ∧
  (∀ (s : State) (ctx : Context) (c : Nat) (v : EngineReturn),
    hostAction ctx (.releaseChannel c) s = .next s ∧
    hostAction ctx (.giveAnswer v) s =
      .next { s with flows := s.flows.set ctx { s.flows.get ctx with answer := some v } })

/-! ### Reset -/

/-- The state after reset (10_state.md R46). -/
def Obligations.ResetValues : Prop :=
  (∀ j : Fin 8, State.reset.slot j = { valid := false, handle := 0x00000000, chan := 0xFF }) ∧
  (∀ c, State.reset.enabled c = false ∧ State.reset.pending c = false ∧ State.reset.isArmed c = false) ∧
  State.reset.installed = false ∧ State.reset.phase = .idle ∧
  State.reset.curFn = 0 ∧ State.reset.curCtx = 0 ∧ State.reset.curHandle = 0 ∧
  (∀ ctx, State.reset.banks.get ctx = { argHandle := 0, argFn := 0, argCtx := 0, result := 0x0000FF00 }) ∧
  State.reset.faults = [] ∧ (∀ h, State.reset.record? h = none) ∧
  State.reset.line = false ∧ State.reset.statusWord = 0 ∧ State.reset.srcEnWord = 0 ∧ State.reset.srcPendWord = 0

/-- A system reset puts every piece of CDRA state to its reset value, from any phase (70_reset_and_hazards.md R200; that
the environment's rows are reset with it and the model's own fields stay is DEDUCED, log entry 10). -/
def Obligations.PlatformResetFromAnyPhase : Prop :=
  ∀ s : State, ∃ t, agentStep .platform s = .next t ∧ t.slots = State.reset.slots ∧ t.en = 0 ∧ t.pend = 0 ∧
    t.installed = false ∧ t.phase = .idle ∧ t.curFn = 0 ∧ t.curCtx = 0 ∧ t.curHandle = 0 ∧
    t.banks = State.reset.banks ∧ t.faults = [] ∧ t.store = [] ∧ t.armed = 0 ∧ t.params = s.params

/-! ### Rules of the whole machine -/

/-- Only REGISTER and UNREGISTER, from the main flow, and reset write the registry (10_state.md R29). -/
def Obligations.OnlyRegisterAndUnregisterWriteSlots : Prop :=
  ∀ s t : State, step s = .next t →
    (t.slots ≠ s.slots →
      s.nextAgent = .platform ∨ issues s .main .register ∨ issues s .main .unregister) ∧
    (s.nextAgent = .platform → t.slots = State.reset.slots)

/-- A busy flag is set only by BUSY_SET of that handle, and cleared only by BUSY_CLEAR of it or by the serve step of a slot
that holds it (42_instance.md R139). -/
def Obligations.BusyFlagHasThreeWriters : Prop :=
  ∀ (s t : State) (h : Word) (r q : Record), Store.wf s.store → step s = .next t →
    s.record? h = some r → t.record? h = some q →
    (r.busy = false → q.busy = true → ∃ ctx, issues s ctx .busySet ∧ (s.banks.get ctx).argHandle = h) ∧
    (r.busy = true → q.busy = false →
      (∃ ctx, issues s ctx .busyClear ∧ (s.banks.get ctx).argHandle = h) ∨
      (s.nextAgent = .dispatcher ∧ ∃ k : Fin 8, s.phase = .scan k.castSucc ∧ hit s k ∧ (s.slot k).handle = h))

/-- A callback function or context is written only by SET_CALLBACK of that handle; direction and channel never change
while the record lives (10_state.md R37). -/
def Obligations.RecordFieldsHaveTheirWriters : Prop :=
  ∀ (s t : State) (h : Word) (r q : Record), Store.wf s.store → step s = .next t →
    s.record? h = some r → t.record? h = some q →
    q.dir = r.dir ∧ q.chan = r.chan ∧
    (q.cb ≠ r.cb ∨ q.ctx ≠ r.ctx → ∃ ctx, issues s ctx .setCallback ∧ (s.banks.get ctx).argHandle = h ∧
      q.cb = (s.banks.get ctx).argFn ∧ q.ctx = (s.banks.get ctx).argCtx)

/-- The fault set is empty at reset and no step of a run takes a record out of it; a system reset begins a new run
(10_state.md R45; log entry 10). -/
def Obligations.FaultsOnlyGrow : Prop :=
  State.reset.faults = [] ∧
  ∀ s t : State, step s = .next t → s.nextAgent ≠ .platform → ∀ f ∈ s.faults, f ∈ t.faults

/-- No step writes the model arguments (10_state.md R20: they are no state; log entry 4). -/
def Obligations.ParamsNeverChange : Prop :=
  ∀ s t : State, step s = .next t → t.params = s.params

/-- Between its own accesses the main flow's bank, its pending actions and its read data stay as they were, whatever the
dispatcher, the callbacks and the DMA do (10_state.md R23, 70_reset_and_hazards.md R210). -/
def Obligations.MainFlowIsUndisturbedByDispatch : Prop :=
  ∀ s t : State, step s = .next t → s.nextAgent ≠ .platform → s.phase ≠ .idle ∨ s.nextAgent ≠ .host .main →
    t.banks.main = s.banks.main ∧ t.flows.main = s.flows.main

/-- The registry invariant: slots canonical, handles and channels distinct (10_state.md R27, R28 (a), (b)). -/
def Obligations.StepKeepsRegistryInvariant : Prop :=
  ∀ s t : State, step s = .next t → s.SlotsCanonical → s.SlotsDistinct → t.SlotsCanonical ∧ t.SlotsDistinct

/-- A valid slot stands in the table of its live instance's direction, unless the host reuses a registered handle for a new
instance (10_state.md R28 (c)). -/
def Obligations.StepKeepsSlotsInTheirTable : Prop :=
  ∀ s t : State, step s = .next t → Store.wf s.store → s.SlotsDirected →
    (∀ ctx h d c, acts s ctx (.create h d c) → ∀ j, (s.slot j).valid = true → (s.slot j).handle ≠ h) →
    t.SlotsDirected

/-- The latch is 0 outside a callback, and in one it names the slot being served (10_state.md R35). -/
def Obligations.StepKeepsLatchInvariant : Prop :=
  ∀ s t : State, step s = .next t → s.LatchOk → t.LatchOk

/-- No channel bit is ever set at or above N_DMA_CH (10_state.md R30, R39, R42). -/
def Obligations.StepKeepsMasksInRange : Prop :=
  ∀ s t : State, step s = .next t → s.MasksOk → t.MasksOk

/-- The instance store keeps its canonical form: handles strictly rising, 0 never live (10_state.md R36; log entry 9). -/
def Obligations.StepKeepsStoreCanonical : Prop :=
  ∀ s t : State, step s = .next t → Store.wf s.store → Store.wf t.store

/-- RESULT's bits 31:19 read 0 in both banks, and the fault set holds no record twice (10_state.md R24, R45). -/
def Obligations.StepKeepsResultFieldsAndFaultSet : Prop :=
  ∀ s t : State, step s = .next t → (s.ResultsOk → t.ResultsOk) ∧ (s.faults.Nodup → t.faults.Nodup)

/-- The reset state meets every invariant above (10_state.md R46, R47). -/
def Obligations.ResetMeetsTheInvariants : Prop :=
  State.reset.SlotsCanonical ∧ State.reset.SlotsDistinct ∧ State.reset.SlotsDirected ∧ State.reset.LatchOk ∧
  State.reset.MasksOk ∧ Store.wf State.reset.store ∧ State.reset.ResultsOk ∧ State.reset.faults.Nodup ∧
  State.reset.params.wellFormed = true
end

