-- ==== Sys2Proof/Laws/Decode.lean ====
section
/-! SUPPORT. The fields of a command word as numbers, and what the decoder answers for each value of them. -/

namespace Sys2Proof

/-- Concatenation on numbers. -/
theorem toNat_append_mul {m n : Nat} (a : BitVec m) (b : BitVec n) :
    (a ++ b).toNat = a.toNat * 2 ^ n + b.toNat := by
  rw [BitVec.toNat_append, ← Nat.shiftLeft_add_eq_or_of_lt b.isLt, Nat.shiftLeft_eq]

theorem opField_toNat (w : Word) : (opField w).toNat = w.toNat % 256 := by
  simp [opField]

theorem chanField_toNat (w : Word) : (chanField w).toNat = w.toNat / 256 % 256 := by
  simp [chanField, Nat.shiftRight_eq_div_pow]

theorem rsvField_eq_zero_iff (w : Word) : rsvField w = 0 ↔ w.toNat / 65536 = 0 := by
  have hw := w.isLt
  rw [← BitVec.toNat_inj]
  have h0 : (0 : BitVec 16).toNat = 0 := rfl
  rw [h0, rsvField, BitVec.extractLsb'_toNat, Nat.shiftRight_eq_div_pow]
  omega

/-- A word with RSV ≠ 0 is refused for it (30_encoding.md R75). -/
theorem decodeWord_reservedBits {w : Word} (h : rsvField w ≠ 0) : decodeWord w = .error .reservedBits := by
  simp only [decodeWord, h, ne_eq, not_false_eq_true, if_true]

/-- With RSV = 0, an opcode from 0x0C on is refused for it (30_encoding.md R75). -/
theorem decodeWord_reservedOpcode {w : Word} (h : rsvField w = 0) (ho : 12 ≤ (opField w).toNat) :
    decodeWord w = .error .reservedOpcode := by
  simp only [decodeWord, h, ne_eq, not_true_eq_false, if_false]
  split <;> first | rfl | omega

/-- With RSV = 0 and one of the twelve opcodes, the word is the command with that opcode and, where it has one, the CHAN
field as operand (30_encoding.md R73, R74). -/
theorem decodeWord_command {w : Word} (h : rsvField w = 0) (ho : (opField w).toNat < 12) :
    ∃ i, decodeWord w = .ok i ∧ opcode i = opField w ∧
      (chanOperand i = chanField w ∨ (chanOperand i = 0 ∧
        ∀ c, i ≠ .srcEnable c ∧ i ≠ .srcDisable c ∧ i ≠ .srcAck c)) := by
  generalize hop : opField w = o at ho
  have hd : decodeWord w = match o.toNat with
      | 0x00 => .ok .nop
      | 0x01 => .ok .install
      | 0x02 => .ok .register
      | 0x03 => .ok .unregister
      | 0x04 => .ok .query
      | 0x05 => .ok .setCallback
      | 0x06 => .ok .busySet
      | 0x07 => .ok .busyClear
      | 0x08 => .ok (.srcEnable (chanField w))
      | 0x09 => .ok (.srcDisable (chanField w))
      | 0x0A => .ok (.srcAck (chanField w))
      | 0x0B => .ok .cbReturn
      | _ => .error .reservedOpcode := by
    simp only [decodeWord, h, ne_eq, not_true_eq_false, if_false, hop] <;> rfl
  have ho' : o = BitVec.ofNat 8 o.toNat := by simp
  rw [hd, ho']
  generalize o.toNat = n at ho
  interval_cases n
  all_goals first
    | exact ⟨_, rfl, rfl, Or.inl rfl⟩
    | exact ⟨_, rfl, rfl, Or.inr ⟨rfl, fun c => ⟨by simp, by simp, by simp⟩⟩⟩

/-- The word of a command as a number (30_encoding.md R78). -/
theorem encode_toNat (i : Instr) : (encode i).toNat = (chanOperand i).toNat * 256 + (opcode i).toNat := by
  simp only [encode, toNat_append_mul, BitVec.toNat_ofNat]
  omega

/-- Four bytes side by side are the word they came from (20_memory.md R51). -/
theorem wordBytes_join (w : Word) :
    (w.extractLsb' 24 8 ++ w.extractLsb' 16 8 ++ w.extractLsb' 8 8 ++ w.extractLsb' 0 8 : BitVec 32) = w := by
  apply BitVec.eq_of_toNat_eq
  have hw := w.isLt
  simp only [toNat_append_mul, BitVec.extractLsb'_toNat, Nat.shiftRight_eq_div_pow]
  omega

/-- Decoding the bytes of a word is decoding the word; the bytes after it are left. -/
theorem decodeBytes_wordBytes (w : Word) (rest : List Byte) :
    decodeBytes (wordBytes w ++ rest) =
      match decodeWord w with
      | .ok i => .ok (i, rest)
      | .error e => .error e := by
  simp only [wordBytes, List.cons_append, List.nil_append, decodeBytes, wordBytes_join] <;> rfl

end Sys2Proof
end

