-- ==== Sys2Proof/Laws/State.lean ====
section
/-! SUPPORT. One lemma per field per setter, true by definition: the simp set in which every frame is computed. -/

namespace Sys2Proof.Machine

/-! ### Banks -/

@[simp] theorem Banked.get_set_same {α : Type} (b : Banked α) (ctx : Context) (v : α) :
    (b.set ctx v).get ctx = v := by cases ctx <;> rfl

theorem Banked.get_set_other {α : Type} (b : Banked α) {ctx ctx' : Context} (h : ctx' ≠ ctx) (v : α) :
    (b.set ctx v).get ctx' = b.get ctx' := by
  cases ctx <;> cases ctx' <;> first | rfl | exact absurd rfl h

@[simp] theorem Banked.set_main_main {α : Type} (b : Banked α) (v : α) : (b.set .main v).main = v := rfl
@[simp] theorem Banked.set_main_irq {α : Type} (b : Banked α) (v : α) : (b.set .main v).irq = b.irq := rfl
@[simp] theorem Banked.set_irq_main {α : Type} (b : Banked α) (v : α) : (b.set .irq v).main = b.main := rfl
@[simp] theorem Banked.set_irq_irq {α : Type} (b : Banked α) (v : α) : (b.set .irq v).irq = v := rfl
@[simp] theorem Banked.get_main {α : Type} (b : Banked α) : b.get .main = b.main := rfl
@[simp] theorem Banked.get_irq {α : Type} (b : Banked α) : b.get .irq = b.irq := rfl

@[simp] theorem Phase.context_idle : Phase.idle.context? = some .main := rfl
@[simp] theorem Phase.context_scan (i : Fin 9) : (Phase.scan i).context? = none := rfl
@[simp] theorem Phase.context_inCallback (i : Fin 8) : (Phase.inCallback i).context? = some .irq := rfl

/-- MAIN is exactly Idle (10_state.md R22). -/
theorem Phase.context_eq_main {p : Phase} : p.context? = some .main ↔ p = .idle := by
  cases p <;> simp

/-- IRQ is exactly `InCallback(i)` for some `i` (10_state.md R22). -/
theorem Phase.context_eq_irq {p : Phase} : p.context? = some .irq ↔ ∃ i, p = .inCallback i := by
  cases p <;> simp

/-! ### Setters -/

@[simp] theorem State.withSlots_params (s : State) (v : Vector Slot 8) : (s.withSlots v).params = s.params := rfl
@[simp] theorem State.withSlots_slots (s : State) (v : Vector Slot 8) : (s.withSlots v).slots = v := rfl
@[simp] theorem State.withSlots_en (s : State) (v : Vector Slot 8) : (s.withSlots v).en = s.en := rfl
@[simp] theorem State.withSlots_pend (s : State) (v : Vector Slot 8) : (s.withSlots v).pend = s.pend := rfl
@[simp] theorem State.withSlots_installed (s : State) (v : Vector Slot 8) : (s.withSlots v).installed = s.installed := rfl
@[simp] theorem State.withSlots_phase (s : State) (v : Vector Slot 8) : (s.withSlots v).phase = s.phase := rfl
@[simp] theorem State.withSlots_curFn (s : State) (v : Vector Slot 8) : (s.withSlots v).curFn = s.curFn := rfl
@[simp] theorem State.withSlots_curCtx (s : State) (v : Vector Slot 8) : (s.withSlots v).curCtx = s.curCtx := rfl
@[simp] theorem State.withSlots_curHandle (s : State) (v : Vector Slot 8) : (s.withSlots v).curHandle = s.curHandle := rfl
@[simp] theorem State.withSlots_banks (s : State) (v : Vector Slot 8) : (s.withSlots v).banks = s.banks := rfl
@[simp] theorem State.withSlots_faults (s : State) (v : Vector Slot 8) : (s.withSlots v).faults = s.faults := rfl
@[simp] theorem State.withSlots_store (s : State) (v : Vector Slot 8) : (s.withSlots v).store = s.store := rfl
@[simp] theorem State.withSlots_armed (s : State) (v : Vector Slot 8) : (s.withSlots v).armed = s.armed := rfl
@[simp] theorem State.withSlots_flows (s : State) (v : Vector Slot 8) : (s.withSlots v).flows = s.flows := rfl
@[simp] theorem State.withSlots_sched (s : State) (v : Vector Slot 8) : (s.withSlots v).sched = s.sched := rfl
@[simp] theorem State.withSlots_draws (s : State) (v : Vector Slot 8) : (s.withSlots v).draws = s.draws := rfl

@[simp] theorem State.withEn_params (s : State) (v : Word) : (s.withEn v).params = s.params := rfl
@[simp] theorem State.withEn_slots (s : State) (v : Word) : (s.withEn v).slots = s.slots := rfl
@[simp] theorem State.withEn_en (s : State) (v : Word) : (s.withEn v).en = v := rfl
@[simp] theorem State.withEn_pend (s : State) (v : Word) : (s.withEn v).pend = s.pend := rfl
@[simp] theorem State.withEn_installed (s : State) (v : Word) : (s.withEn v).installed = s.installed := rfl
@[simp] theorem State.withEn_phase (s : State) (v : Word) : (s.withEn v).phase = s.phase := rfl
@[simp] theorem State.withEn_curFn (s : State) (v : Word) : (s.withEn v).curFn = s.curFn := rfl
@[simp] theorem State.withEn_curCtx (s : State) (v : Word) : (s.withEn v).curCtx = s.curCtx := rfl
@[simp] theorem State.withEn_curHandle (s : State) (v : Word) : (s.withEn v).curHandle = s.curHandle := rfl
@[simp] theorem State.withEn_banks (s : State) (v : Word) : (s.withEn v).banks = s.banks := rfl
@[simp] theorem State.withEn_faults (s : State) (v : Word) : (s.withEn v).faults = s.faults := rfl
@[simp] theorem State.withEn_store (s : State) (v : Word) : (s.withEn v).store = s.store := rfl
@[simp] theorem State.withEn_armed (s : State) (v : Word) : (s.withEn v).armed = s.armed := rfl
@[simp] theorem State.withEn_flows (s : State) (v : Word) : (s.withEn v).flows = s.flows := rfl
@[simp] theorem State.withEn_sched (s : State) (v : Word) : (s.withEn v).sched = s.sched := rfl
@[simp] theorem State.withEn_draws (s : State) (v : Word) : (s.withEn v).draws = s.draws := rfl

@[simp] theorem State.withPend_params (s : State) (v : Word) : (s.withPend v).params = s.params := rfl
@[simp] theorem State.withPend_slots (s : State) (v : Word) : (s.withPend v).slots = s.slots := rfl
@[simp] theorem State.withPend_en (s : State) (v : Word) : (s.withPend v).en = s.en := rfl
@[simp] theorem State.withPend_pend (s : State) (v : Word) : (s.withPend v).pend = v := rfl
@[simp] theorem State.withPend_installed (s : State) (v : Word) : (s.withPend v).installed = s.installed := rfl
@[simp] theorem State.withPend_phase (s : State) (v : Word) : (s.withPend v).phase = s.phase := rfl
@[simp] theorem State.withPend_curFn (s : State) (v : Word) : (s.withPend v).curFn = s.curFn := rfl
@[simp] theorem State.withPend_curCtx (s : State) (v : Word) : (s.withPend v).curCtx = s.curCtx := rfl
@[simp] theorem State.withPend_curHandle (s : State) (v : Word) : (s.withPend v).curHandle = s.curHandle := rfl
@[simp] theorem State.withPend_banks (s : State) (v : Word) : (s.withPend v).banks = s.banks := rfl
@[simp] theorem State.withPend_faults (s : State) (v : Word) : (s.withPend v).faults = s.faults := rfl
@[simp] theorem State.withPend_store (s : State) (v : Word) : (s.withPend v).store = s.store := rfl
@[simp] theorem State.withPend_armed (s : State) (v : Word) : (s.withPend v).armed = s.armed := rfl
@[simp] theorem State.withPend_flows (s : State) (v : Word) : (s.withPend v).flows = s.flows := rfl
@[simp] theorem State.withPend_sched (s : State) (v : Word) : (s.withPend v).sched = s.sched := rfl
@[simp] theorem State.withPend_draws (s : State) (v : Word) : (s.withPend v).draws = s.draws := rfl

@[simp] theorem State.withInstalled_params (s : State) (v : Bool) : (s.withInstalled v).params = s.params := rfl
@[simp] theorem State.withInstalled_slots (s : State) (v : Bool) : (s.withInstalled v).slots = s.slots := rfl
@[simp] theorem State.withInstalled_en (s : State) (v : Bool) : (s.withInstalled v).en = s.en := rfl
@[simp] theorem State.withInstalled_pend (s : State) (v : Bool) : (s.withInstalled v).pend = s.pend := rfl
@[simp] theorem State.withInstalled_installed (s : State) (v : Bool) : (s.withInstalled v).installed = v := rfl
@[simp] theorem State.withInstalled_phase (s : State) (v : Bool) : (s.withInstalled v).phase = s.phase := rfl
@[simp] theorem State.withInstalled_curFn (s : State) (v : Bool) : (s.withInstalled v).curFn = s.curFn := rfl
@[simp] theorem State.withInstalled_curCtx (s : State) (v : Bool) : (s.withInstalled v).curCtx = s.curCtx := rfl
@[simp] theorem State.withInstalled_curHandle (s : State) (v : Bool) : (s.withInstalled v).curHandle = s.curHandle := rfl
@[simp] theorem State.withInstalled_banks (s : State) (v : Bool) : (s.withInstalled v).banks = s.banks := rfl
@[simp] theorem State.withInstalled_faults (s : State) (v : Bool) : (s.withInstalled v).faults = s.faults := rfl
@[simp] theorem State.withInstalled_store (s : State) (v : Bool) : (s.withInstalled v).store = s.store := rfl
@[simp] theorem State.withInstalled_armed (s : State) (v : Bool) : (s.withInstalled v).armed = s.armed := rfl
@[simp] theorem State.withInstalled_flows (s : State) (v : Bool) : (s.withInstalled v).flows = s.flows := rfl
@[simp] theorem State.withInstalled_sched (s : State) (v : Bool) : (s.withInstalled v).sched = s.sched := rfl
@[simp] theorem State.withInstalled_draws (s : State) (v : Bool) : (s.withInstalled v).draws = s.draws := rfl

@[simp] theorem State.withPhase_params (s : State) (v : Phase) : (s.withPhase v).params = s.params := rfl
@[simp] theorem State.withPhase_slots (s : State) (v : Phase) : (s.withPhase v).slots = s.slots := rfl
@[simp] theorem State.withPhase_en (s : State) (v : Phase) : (s.withPhase v).en = s.en := rfl
@[simp] theorem State.withPhase_pend (s : State) (v : Phase) : (s.withPhase v).pend = s.pend := rfl
@[simp] theorem State.withPhase_installed (s : State) (v : Phase) : (s.withPhase v).installed = s.installed := rfl
@[simp] theorem State.withPhase_phase (s : State) (v : Phase) : (s.withPhase v).phase = v := rfl
@[simp] theorem State.withPhase_curFn (s : State) (v : Phase) : (s.withPhase v).curFn = s.curFn := rfl
@[simp] theorem State.withPhase_curCtx (s : State) (v : Phase) : (s.withPhase v).curCtx = s.curCtx := rfl
@[simp] theorem State.withPhase_curHandle (s : State) (v : Phase) : (s.withPhase v).curHandle = s.curHandle := rfl
@[simp] theorem State.withPhase_banks (s : State) (v : Phase) : (s.withPhase v).banks = s.banks := rfl
@[simp] theorem State.withPhase_faults (s : State) (v : Phase) : (s.withPhase v).faults = s.faults := rfl
@[simp] theorem State.withPhase_store (s : State) (v : Phase) : (s.withPhase v).store = s.store := rfl
@[simp] theorem State.withPhase_armed (s : State) (v : Phase) : (s.withPhase v).armed = s.armed := rfl
@[simp] theorem State.withPhase_flows (s : State) (v : Phase) : (s.withPhase v).flows = s.flows := rfl
@[simp] theorem State.withPhase_sched (s : State) (v : Phase) : (s.withPhase v).sched = s.sched := rfl
@[simp] theorem State.withPhase_draws (s : State) (v : Phase) : (s.withPhase v).draws = s.draws := rfl

@[simp] theorem State.withLatch_params (s : State) (a b c : Word) : (s.withLatch a b c).params = s.params := rfl
@[simp] theorem State.withLatch_slots (s : State) (a b c : Word) : (s.withLatch a b c).slots = s.slots := rfl
@[simp] theorem State.withLatch_en (s : State) (a b c : Word) : (s.withLatch a b c).en = s.en := rfl
@[simp] theorem State.withLatch_pend (s : State) (a b c : Word) : (s.withLatch a b c).pend = s.pend := rfl
@[simp] theorem State.withLatch_installed (s : State) (a b c : Word) : (s.withLatch a b c).installed = s.installed := rfl
@[simp] theorem State.withLatch_phase (s : State) (a b c : Word) : (s.withLatch a b c).phase = s.phase := rfl
@[simp] theorem State.withLatch_curFn (s : State) (a b c : Word) : (s.withLatch a b c).curFn = a := rfl
@[simp] theorem State.withLatch_curCtx (s : State) (a b c : Word) : (s.withLatch a b c).curCtx = b := rfl
@[simp] theorem State.withLatch_curHandle (s : State) (a b c : Word) : (s.withLatch a b c).curHandle = c := rfl
@[simp] theorem State.withLatch_banks (s : State) (a b c : Word) : (s.withLatch a b c).banks = s.banks := rfl
@[simp] theorem State.withLatch_faults (s : State) (a b c : Word) : (s.withLatch a b c).faults = s.faults := rfl
@[simp] theorem State.withLatch_store (s : State) (a b c : Word) : (s.withLatch a b c).store = s.store := rfl
@[simp] theorem State.withLatch_armed (s : State) (a b c : Word) : (s.withLatch a b c).armed = s.armed := rfl
@[simp] theorem State.withLatch_flows (s : State) (a b c : Word) : (s.withLatch a b c).flows = s.flows := rfl
@[simp] theorem State.withLatch_sched (s : State) (a b c : Word) : (s.withLatch a b c).sched = s.sched := rfl
@[simp] theorem State.withLatch_draws (s : State) (a b c : Word) : (s.withLatch a b c).draws = s.draws := rfl

@[simp] theorem State.withBank_params (s : State) (ctx : Context) (v : Bank) : (s.withBank ctx v).params = s.params := rfl
@[simp] theorem State.withBank_slots (s : State) (ctx : Context) (v : Bank) : (s.withBank ctx v).slots = s.slots := rfl
@[simp] theorem State.withBank_en (s : State) (ctx : Context) (v : Bank) : (s.withBank ctx v).en = s.en := rfl
@[simp] theorem State.withBank_pend (s : State) (ctx : Context) (v : Bank) : (s.withBank ctx v).pend = s.pend := rfl
@[simp] theorem State.withBank_installed (s : State) (ctx : Context) (v : Bank) : (s.withBank ctx v).installed = s.installed := rfl
@[simp] theorem State.withBank_phase (s : State) (ctx : Context) (v : Bank) : (s.withBank ctx v).phase = s.phase := rfl
@[simp] theorem State.withBank_curFn (s : State) (ctx : Context) (v : Bank) : (s.withBank ctx v).curFn = s.curFn := rfl
@[simp] theorem State.withBank_curCtx (s : State) (ctx : Context) (v : Bank) : (s.withBank ctx v).curCtx = s.curCtx := rfl
@[simp] theorem State.withBank_curHandle (s : State) (ctx : Context) (v : Bank) : (s.withBank ctx v).curHandle = s.curHandle := rfl
@[simp] theorem State.withBank_banks (s : State) (ctx : Context) (v : Bank) : (s.withBank ctx v).banks = s.banks.set ctx v := rfl
@[simp] theorem State.withBank_faults (s : State) (ctx : Context) (v : Bank) : (s.withBank ctx v).faults = s.faults := rfl
@[simp] theorem State.withBank_store (s : State) (ctx : Context) (v : Bank) : (s.withBank ctx v).store = s.store := rfl
@[simp] theorem State.withBank_armed (s : State) (ctx : Context) (v : Bank) : (s.withBank ctx v).armed = s.armed := rfl
@[simp] theorem State.withBank_flows (s : State) (ctx : Context) (v : Bank) : (s.withBank ctx v).flows = s.flows := rfl
@[simp] theorem State.withBank_sched (s : State) (ctx : Context) (v : Bank) : (s.withBank ctx v).sched = s.sched := rfl
@[simp] theorem State.withBank_draws (s : State) (ctx : Context) (v : Bank) : (s.withBank ctx v).draws = s.draws := rfl

@[simp] theorem State.withFaults_params (s : State) (v : List FaultRecord) : (s.withFaults v).params = s.params := rfl
@[simp] theorem State.withFaults_slots (s : State) (v : List FaultRecord) : (s.withFaults v).slots = s.slots := rfl
@[simp] theorem State.withFaults_en (s : State) (v : List FaultRecord) : (s.withFaults v).en = s.en := rfl
@[simp] theorem State.withFaults_pend (s : State) (v : List FaultRecord) : (s.withFaults v).pend = s.pend := rfl
@[simp] theorem State.withFaults_installed (s : State) (v : List FaultRecord) : (s.withFaults v).installed = s.installed := rfl
@[simp] theorem State.withFaults_phase (s : State) (v : List FaultRecord) : (s.withFaults v).phase = s.phase := rfl
@[simp] theorem State.withFaults_curFn (s : State) (v : List FaultRecord) : (s.withFaults v).curFn = s.curFn := rfl
@[simp] theorem State.withFaults_curCtx (s : State) (v : List FaultRecord) : (s.withFaults v).curCtx = s.curCtx := rfl
@[simp] theorem State.withFaults_curHandle (s : State) (v : List FaultRecord) : (s.withFaults v).curHandle = s.curHandle := rfl
@[simp] theorem State.withFaults_banks (s : State) (v : List FaultRecord) : (s.withFaults v).banks = s.banks := rfl
@[simp] theorem State.withFaults_faults (s : State) (v : List FaultRecord) : (s.withFaults v).faults = v := rfl
@[simp] theorem State.withFaults_store (s : State) (v : List FaultRecord) : (s.withFaults v).store = s.store := rfl
@[simp] theorem State.withFaults_armed (s : State) (v : List FaultRecord) : (s.withFaults v).armed = s.armed := rfl
@[simp] theorem State.withFaults_flows (s : State) (v : List FaultRecord) : (s.withFaults v).flows = s.flows := rfl
@[simp] theorem State.withFaults_sched (s : State) (v : List FaultRecord) : (s.withFaults v).sched = s.sched := rfl
@[simp] theorem State.withFaults_draws (s : State) (v : List FaultRecord) : (s.withFaults v).draws = s.draws := rfl

@[simp] theorem State.withStore_params (s : State) (v : Store) : (s.withStore v).params = s.params := rfl
@[simp] theorem State.withStore_slots (s : State) (v : Store) : (s.withStore v).slots = s.slots := rfl
@[simp] theorem State.withStore_en (s : State) (v : Store) : (s.withStore v).en = s.en := rfl
@[simp] theorem State.withStore_pend (s : State) (v : Store) : (s.withStore v).pend = s.pend := rfl
@[simp] theorem State.withStore_installed (s : State) (v : Store) : (s.withStore v).installed = s.installed := rfl
@[simp] theorem State.withStore_phase (s : State) (v : Store) : (s.withStore v).phase = s.phase := rfl
@[simp] theorem State.withStore_curFn (s : State) (v : Store) : (s.withStore v).curFn = s.curFn := rfl
@[simp] theorem State.withStore_curCtx (s : State) (v : Store) : (s.withStore v).curCtx = s.curCtx := rfl
@[simp] theorem State.withStore_curHandle (s : State) (v : Store) : (s.withStore v).curHandle = s.curHandle := rfl
@[simp] theorem State.withStore_banks (s : State) (v : Store) : (s.withStore v).banks = s.banks := rfl
@[simp] theorem State.withStore_faults (s : State) (v : Store) : (s.withStore v).faults = s.faults := rfl
@[simp] theorem State.withStore_store (s : State) (v : Store) : (s.withStore v).store = v := rfl
@[simp] theorem State.withStore_armed (s : State) (v : Store) : (s.withStore v).armed = s.armed := rfl
@[simp] theorem State.withStore_flows (s : State) (v : Store) : (s.withStore v).flows = s.flows := rfl
@[simp] theorem State.withStore_sched (s : State) (v : Store) : (s.withStore v).sched = s.sched := rfl
@[simp] theorem State.withStore_draws (s : State) (v : Store) : (s.withStore v).draws = s.draws := rfl

@[simp] theorem State.withArmed_params (s : State) (v : Word) : (s.withArmed v).params = s.params := rfl
@[simp] theorem State.withArmed_slots (s : State) (v : Word) : (s.withArmed v).slots = s.slots := rfl
@[simp] theorem State.withArmed_en (s : State) (v : Word) : (s.withArmed v).en = s.en := rfl
@[simp] theorem State.withArmed_pend (s : State) (v : Word) : (s.withArmed v).pend = s.pend := rfl
@[simp] theorem State.withArmed_installed (s : State) (v : Word) : (s.withArmed v).installed = s.installed := rfl
@[simp] theorem State.withArmed_phase (s : State) (v : Word) : (s.withArmed v).phase = s.phase := rfl
@[simp] theorem State.withArmed_curFn (s : State) (v : Word) : (s.withArmed v).curFn = s.curFn := rfl
@[simp] theorem State.withArmed_curCtx (s : State) (v : Word) : (s.withArmed v).curCtx = s.curCtx := rfl
@[simp] theorem State.withArmed_curHandle (s : State) (v : Word) : (s.withArmed v).curHandle = s.curHandle := rfl
@[simp] theorem State.withArmed_banks (s : State) (v : Word) : (s.withArmed v).banks = s.banks := rfl
@[simp] theorem State.withArmed_faults (s : State) (v : Word) : (s.withArmed v).faults = s.faults := rfl
@[simp] theorem State.withArmed_store (s : State) (v : Word) : (s.withArmed v).store = s.store := rfl
@[simp] theorem State.withArmed_armed (s : State) (v : Word) : (s.withArmed v).armed = v := rfl
@[simp] theorem State.withArmed_flows (s : State) (v : Word) : (s.withArmed v).flows = s.flows := rfl
@[simp] theorem State.withArmed_sched (s : State) (v : Word) : (s.withArmed v).sched = s.sched := rfl
@[simp] theorem State.withArmed_draws (s : State) (v : Word) : (s.withArmed v).draws = s.draws := rfl

@[simp] theorem State.withFlow_params (s : State) (ctx : Context) (v : HostFlow) : (s.withFlow ctx v).params = s.params := rfl
@[simp] theorem State.withFlow_slots (s : State) (ctx : Context) (v : HostFlow) : (s.withFlow ctx v).slots = s.slots := rfl
@[simp] theorem State.withFlow_en (s : State) (ctx : Context) (v : HostFlow) : (s.withFlow ctx v).en = s.en := rfl
@[simp] theorem State.withFlow_pend (s : State) (ctx : Context) (v : HostFlow) : (s.withFlow ctx v).pend = s.pend := rfl
@[simp] theorem State.withFlow_installed (s : State) (ctx : Context) (v : HostFlow) : (s.withFlow ctx v).installed = s.installed := rfl
@[simp] theorem State.withFlow_phase (s : State) (ctx : Context) (v : HostFlow) : (s.withFlow ctx v).phase = s.phase := rfl
@[simp] theorem State.withFlow_curFn (s : State) (ctx : Context) (v : HostFlow) : (s.withFlow ctx v).curFn = s.curFn := rfl
@[simp] theorem State.withFlow_curCtx (s : State) (ctx : Context) (v : HostFlow) : (s.withFlow ctx v).curCtx = s.curCtx := rfl
@[simp] theorem State.withFlow_curHandle (s : State) (ctx : Context) (v : HostFlow) : (s.withFlow ctx v).curHandle = s.curHandle := rfl
@[simp] theorem State.withFlow_banks (s : State) (ctx : Context) (v : HostFlow) : (s.withFlow ctx v).banks = s.banks := rfl
@[simp] theorem State.withFlow_faults (s : State) (ctx : Context) (v : HostFlow) : (s.withFlow ctx v).faults = s.faults := rfl
@[simp] theorem State.withFlow_store (s : State) (ctx : Context) (v : HostFlow) : (s.withFlow ctx v).store = s.store := rfl
@[simp] theorem State.withFlow_armed (s : State) (ctx : Context) (v : HostFlow) : (s.withFlow ctx v).armed = s.armed := rfl
@[simp] theorem State.withFlow_flows (s : State) (ctx : Context) (v : HostFlow) : (s.withFlow ctx v).flows = s.flows.set ctx v := rfl
@[simp] theorem State.withFlow_sched (s : State) (ctx : Context) (v : HostFlow) : (s.withFlow ctx v).sched = s.sched := rfl
@[simp] theorem State.withFlow_draws (s : State) (ctx : Context) (v : HostFlow) : (s.withFlow ctx v).draws = s.draws := rfl

@[simp] theorem State.withSched_params (s : State) (v : List Agent) : (s.withSched v).params = s.params := rfl
@[simp] theorem State.withSched_slots (s : State) (v : List Agent) : (s.withSched v).slots = s.slots := rfl
@[simp] theorem State.withSched_en (s : State) (v : List Agent) : (s.withSched v).en = s.en := rfl
@[simp] theorem State.withSched_pend (s : State) (v : List Agent) : (s.withSched v).pend = s.pend := rfl
@[simp] theorem State.withSched_installed (s : State) (v : List Agent) : (s.withSched v).installed = s.installed := rfl
@[simp] theorem State.withSched_phase (s : State) (v : List Agent) : (s.withSched v).phase = s.phase := rfl
@[simp] theorem State.withSched_curFn (s : State) (v : List Agent) : (s.withSched v).curFn = s.curFn := rfl
@[simp] theorem State.withSched_curCtx (s : State) (v : List Agent) : (s.withSched v).curCtx = s.curCtx := rfl
@[simp] theorem State.withSched_curHandle (s : State) (v : List Agent) : (s.withSched v).curHandle = s.curHandle := rfl
@[simp] theorem State.withSched_banks (s : State) (v : List Agent) : (s.withSched v).banks = s.banks := rfl
@[simp] theorem State.withSched_faults (s : State) (v : List Agent) : (s.withSched v).faults = s.faults := rfl
@[simp] theorem State.withSched_store (s : State) (v : List Agent) : (s.withSched v).store = s.store := rfl
@[simp] theorem State.withSched_armed (s : State) (v : List Agent) : (s.withSched v).armed = s.armed := rfl
@[simp] theorem State.withSched_flows (s : State) (v : List Agent) : (s.withSched v).flows = s.flows := rfl
@[simp] theorem State.withSched_sched (s : State) (v : List Agent) : (s.withSched v).sched = v := rfl
@[simp] theorem State.withSched_draws (s : State) (v : List Agent) : (s.withSched v).draws = s.draws := rfl

@[simp] theorem State.withDraws_params (s : State) (v : Nat) : (s.withDraws v).params = s.params := rfl
@[simp] theorem State.withDraws_slots (s : State) (v : Nat) : (s.withDraws v).slots = s.slots := rfl
@[simp] theorem State.withDraws_en (s : State) (v : Nat) : (s.withDraws v).en = s.en := rfl
@[simp] theorem State.withDraws_pend (s : State) (v : Nat) : (s.withDraws v).pend = s.pend := rfl
@[simp] theorem State.withDraws_installed (s : State) (v : Nat) : (s.withDraws v).installed = s.installed := rfl
@[simp] theorem State.withDraws_phase (s : State) (v : Nat) : (s.withDraws v).phase = s.phase := rfl
@[simp] theorem State.withDraws_curFn (s : State) (v : Nat) : (s.withDraws v).curFn = s.curFn := rfl
@[simp] theorem State.withDraws_curCtx (s : State) (v : Nat) : (s.withDraws v).curCtx = s.curCtx := rfl
@[simp] theorem State.withDraws_curHandle (s : State) (v : Nat) : (s.withDraws v).curHandle = s.curHandle := rfl
@[simp] theorem State.withDraws_banks (s : State) (v : Nat) : (s.withDraws v).banks = s.banks := rfl
@[simp] theorem State.withDraws_faults (s : State) (v : Nat) : (s.withDraws v).faults = s.faults := rfl
@[simp] theorem State.withDraws_store (s : State) (v : Nat) : (s.withDraws v).store = s.store := rfl
@[simp] theorem State.withDraws_armed (s : State) (v : Nat) : (s.withDraws v).armed = s.armed := rfl
@[simp] theorem State.withDraws_flows (s : State) (v : Nat) : (s.withDraws v).flows = s.flows := rfl
@[simp] theorem State.withDraws_sched (s : State) (v : Nat) : (s.withDraws v).sched = s.sched := rfl
@[simp] theorem State.withDraws_draws (s : State) (v : Nat) : (s.withDraws v).draws = v := rfl

end Sys2Proof.Machine
end

