-- ==== Sys2Proof/Laws/Ops.lean ====
section
/-! SUPPORT. What each shared operation does, once: the frames of the composed setters, the channel bits, the slots, RESULT,
the fault set, and what `command` answers. -/

namespace Sys2Proof.Machine

/-! ### Frames of the composed setters -/

@[simp] theorem State.setEnabled_params (s : State) (c : Nat) (v : Bool) : (s.setEnabled c v).params = s.params := rfl
@[simp] theorem State.setEnabled_slots (s : State) (c : Nat) (v : Bool) : (s.setEnabled c v).slots = s.slots := rfl
@[simp] theorem State.setEnabled_en (s : State) (c : Nat) (v : Bool) : (s.setEnabled c v).en = writeBit s.en c v := rfl
@[simp] theorem State.setEnabled_pend (s : State) (c : Nat) (v : Bool) : (s.setEnabled c v).pend = s.pend := rfl
@[simp] theorem State.setEnabled_installed (s : State) (c : Nat) (v : Bool) : (s.setEnabled c v).installed = s.installed := rfl
@[simp] theorem State.setEnabled_phase (s : State) (c : Nat) (v : Bool) : (s.setEnabled c v).phase = s.phase := rfl
@[simp] theorem State.setEnabled_curFn (s : State) (c : Nat) (v : Bool) : (s.setEnabled c v).curFn = s.curFn := rfl
@[simp] theorem State.setEnabled_curCtx (s : State) (c : Nat) (v : Bool) : (s.setEnabled c v).curCtx = s.curCtx := rfl
@[simp] theorem State.setEnabled_curHandle (s : State) (c : Nat) (v : Bool) : (s.setEnabled c v).curHandle = s.curHandle := rfl
@[simp] theorem State.setEnabled_banks (s : State) (c : Nat) (v : Bool) : (s.setEnabled c v).banks = s.banks := rfl
@[simp] theorem State.setEnabled_faults (s : State) (c : Nat) (v : Bool) : (s.setEnabled c v).faults = s.faults := rfl
@[simp] theorem State.setEnabled_store (s : State) (c : Nat) (v : Bool) : (s.setEnabled c v).store = s.store := rfl
@[simp] theorem State.setEnabled_armed (s : State) (c : Nat) (v : Bool) : (s.setEnabled c v).armed = s.armed := rfl
@[simp] theorem State.setEnabled_flows (s : State) (c : Nat) (v : Bool) : (s.setEnabled c v).flows = s.flows := rfl
@[simp] theorem State.setEnabled_sched (s : State) (c : Nat) (v : Bool) : (s.setEnabled c v).sched = s.sched := rfl
@[simp] theorem State.setEnabled_draws (s : State) (c : Nat) (v : Bool) : (s.setEnabled c v).draws = s.draws := rfl

@[simp] theorem State.setPending_params (s : State) (c : Nat) (v : Bool) : (s.setPending c v).params = s.params := rfl
@[simp] theorem State.setPending_slots (s : State) (c : Nat) (v : Bool) : (s.setPending c v).slots = s.slots := rfl
@[simp] theorem State.setPending_en (s : State) (c : Nat) (v : Bool) : (s.setPending c v).en = s.en := rfl
@[simp] theorem State.setPending_pend (s : State) (c : Nat) (v : Bool) : (s.setPending c v).pend = writeBit s.pend c v := rfl
@[simp] theorem State.setPending_installed (s : State) (c : Nat) (v : Bool) : (s.setPending c v).installed = s.installed := rfl
@[simp] theorem State.setPending_phase (s : State) (c : Nat) (v : Bool) : (s.setPending c v).phase = s.phase := rfl
@[simp] theorem State.setPending_curFn (s : State) (c : Nat) (v : Bool) : (s.setPending c v).curFn = s.curFn := rfl
@[simp] theorem State.setPending_curCtx (s : State) (c : Nat) (v : Bool) : (s.setPending c v).curCtx = s.curCtx := rfl
@[simp] theorem State.setPending_curHandle (s : State) (c : Nat) (v : Bool) : (s.setPending c v).curHandle = s.curHandle := rfl
@[simp] theorem State.setPending_banks (s : State) (c : Nat) (v : Bool) : (s.setPending c v).banks = s.banks := rfl
@[simp] theorem State.setPending_faults (s : State) (c : Nat) (v : Bool) : (s.setPending c v).faults = s.faults := rfl
@[simp] theorem State.setPending_store (s : State) (c : Nat) (v : Bool) : (s.setPending c v).store = s.store := rfl
@[simp] theorem State.setPending_armed (s : State) (c : Nat) (v : Bool) : (s.setPending c v).armed = s.armed := rfl
@[simp] theorem State.setPending_flows (s : State) (c : Nat) (v : Bool) : (s.setPending c v).flows = s.flows := rfl
@[simp] theorem State.setPending_sched (s : State) (c : Nat) (v : Bool) : (s.setPending c v).sched = s.sched := rfl
@[simp] theorem State.setPending_draws (s : State) (c : Nat) (v : Bool) : (s.setPending c v).draws = s.draws := rfl

@[simp] theorem State.setArmed_params (s : State) (c : Nat) (v : Bool) : (s.setArmed c v).params = s.params := rfl
@[simp] theorem State.setArmed_slots (s : State) (c : Nat) (v : Bool) : (s.setArmed c v).slots = s.slots := rfl
@[simp] theorem State.setArmed_en (s : State) (c : Nat) (v : Bool) : (s.setArmed c v).en = s.en := rfl
@[simp] theorem State.setArmed_pend (s : State) (c : Nat) (v : Bool) : (s.setArmed c v).pend = s.pend := rfl
@[simp] theorem State.setArmed_installed (s : State) (c : Nat) (v : Bool) : (s.setArmed c v).installed = s.installed := rfl
@[simp] theorem State.setArmed_phase (s : State) (c : Nat) (v : Bool) : (s.setArmed c v).phase = s.phase := rfl
@[simp] theorem State.setArmed_curFn (s : State) (c : Nat) (v : Bool) : (s.setArmed c v).curFn = s.curFn := rfl
@[simp] theorem State.setArmed_curCtx (s : State) (c : Nat) (v : Bool) : (s.setArmed c v).curCtx = s.curCtx := rfl
@[simp] theorem State.setArmed_curHandle (s : State) (c : Nat) (v : Bool) : (s.setArmed c v).curHandle = s.curHandle := rfl
@[simp] theorem State.setArmed_banks (s : State) (c : Nat) (v : Bool) : (s.setArmed c v).banks = s.banks := rfl
@[simp] theorem State.setArmed_faults (s : State) (c : Nat) (v : Bool) : (s.setArmed c v).faults = s.faults := rfl
@[simp] theorem State.setArmed_store (s : State) (c : Nat) (v : Bool) : (s.setArmed c v).store = s.store := rfl
@[simp] theorem State.setArmed_armed (s : State) (c : Nat) (v : Bool) : (s.setArmed c v).armed = writeBit s.armed c v := rfl
@[simp] theorem State.setArmed_flows (s : State) (c : Nat) (v : Bool) : (s.setArmed c v).flows = s.flows := rfl
@[simp] theorem State.setArmed_sched (s : State) (c : Nat) (v : Bool) : (s.setArmed c v).sched = s.sched := rfl
@[simp] theorem State.setArmed_draws (s : State) (c : Nat) (v : Bool) : (s.setArmed c v).draws = s.draws := rfl

@[simp] theorem State.setSlot_params (s : State) (j : Fin 8) (v : Slot) : (s.setSlot j v).params = s.params := rfl
@[simp] theorem State.setSlot_slots (s : State) (j : Fin 8) (v : Slot) : (s.setSlot j v).slots = s.slots.set j v := rfl
@[simp] theorem State.setSlot_en (s : State) (j : Fin 8) (v : Slot) : (s.setSlot j v).en = s.en := rfl
@[simp] theorem State.setSlot_pend (s : State) (j : Fin 8) (v : Slot) : (s.setSlot j v).pend = s.pend := rfl
@[simp] theorem State.setSlot_installed (s : State) (j : Fin 8) (v : Slot) : (s.setSlot j v).installed = s.installed := rfl
@[simp] theorem State.setSlot_phase (s : State) (j : Fin 8) (v : Slot) : (s.setSlot j v).phase = s.phase := rfl
@[simp] theorem State.setSlot_curFn (s : State) (j : Fin 8) (v : Slot) : (s.setSlot j v).curFn = s.curFn := rfl
@[simp] theorem State.setSlot_curCtx (s : State) (j : Fin 8) (v : Slot) : (s.setSlot j v).curCtx = s.curCtx := rfl
@[simp] theorem State.setSlot_curHandle (s : State) (j : Fin 8) (v : Slot) : (s.setSlot j v).curHandle = s.curHandle := rfl
@[simp] theorem State.setSlot_banks (s : State) (j : Fin 8) (v : Slot) : (s.setSlot j v).banks = s.banks := rfl
@[simp] theorem State.setSlot_faults (s : State) (j : Fin 8) (v : Slot) : (s.setSlot j v).faults = s.faults := rfl
@[simp] theorem State.setSlot_store (s : State) (j : Fin 8) (v : Slot) : (s.setSlot j v).store = s.store := rfl
@[simp] theorem State.setSlot_armed (s : State) (j : Fin 8) (v : Slot) : (s.setSlot j v).armed = s.armed := rfl
@[simp] theorem State.setSlot_flows (s : State) (j : Fin 8) (v : Slot) : (s.setSlot j v).flows = s.flows := rfl
@[simp] theorem State.setSlot_sched (s : State) (j : Fin 8) (v : Slot) : (s.setSlot j v).sched = s.sched := rfl
@[simp] theorem State.setSlot_draws (s : State) (j : Fin 8) (v : Slot) : (s.setSlot j v).draws = s.draws := rfl

@[simp] theorem State.updateRecord_params (s : State) (h : Word) (f : Record → Record) : (s.updateRecord h f).params = s.params := rfl
@[simp] theorem State.updateRecord_slots (s : State) (h : Word) (f : Record → Record) : (s.updateRecord h f).slots = s.slots := rfl
@[simp] theorem State.updateRecord_en (s : State) (h : Word) (f : Record → Record) : (s.updateRecord h f).en = s.en := rfl
@[simp] theorem State.updateRecord_pend (s : State) (h : Word) (f : Record → Record) : (s.updateRecord h f).pend = s.pend := rfl
@[simp] theorem State.updateRecord_installed (s : State) (h : Word) (f : Record → Record) : (s.updateRecord h f).installed = s.installed := rfl
@[simp] theorem State.updateRecord_phase (s : State) (h : Word) (f : Record → Record) : (s.updateRecord h f).phase = s.phase := rfl
@[simp] theorem State.updateRecord_curFn (s : State) (h : Word) (f : Record → Record) : (s.updateRecord h f).curFn = s.curFn := rfl
@[simp] theorem State.updateRecord_curCtx (s : State) (h : Word) (f : Record → Record) : (s.updateRecord h f).curCtx = s.curCtx := rfl
@[simp] theorem State.updateRecord_curHandle (s : State) (h : Word) (f : Record → Record) : (s.updateRecord h f).curHandle = s.curHandle := rfl
@[simp] theorem State.updateRecord_banks (s : State) (h : Word) (f : Record → Record) : (s.updateRecord h f).banks = s.banks := rfl
@[simp] theorem State.updateRecord_faults (s : State) (h : Word) (f : Record → Record) : (s.updateRecord h f).faults = s.faults := rfl
@[simp] theorem State.updateRecord_store (s : State) (h : Word) (f : Record → Record) : (s.updateRecord h f).store = Store.modify s.store h f := rfl
@[simp] theorem State.updateRecord_armed (s : State) (h : Word) (f : Record → Record) : (s.updateRecord h f).armed = s.armed := rfl
@[simp] theorem State.updateRecord_flows (s : State) (h : Word) (f : Record → Record) : (s.updateRecord h f).flows = s.flows := rfl
@[simp] theorem State.updateRecord_sched (s : State) (h : Word) (f : Record → Record) : (s.updateRecord h f).sched = s.sched := rfl
@[simp] theorem State.updateRecord_draws (s : State) (h : Word) (f : Record → Record) : (s.updateRecord h f).draws = s.draws := rfl

@[simp] theorem State.setBusy_params (s : State) (h : Word) (v : Bool) : (s.setBusy h v).params = s.params := rfl
@[simp] theorem State.setBusy_slots (s : State) (h : Word) (v : Bool) : (s.setBusy h v).slots = s.slots := rfl
@[simp] theorem State.setBusy_en (s : State) (h : Word) (v : Bool) : (s.setBusy h v).en = s.en := rfl
@[simp] theorem State.setBusy_pend (s : State) (h : Word) (v : Bool) : (s.setBusy h v).pend = s.pend := rfl
@[simp] theorem State.setBusy_installed (s : State) (h : Word) (v : Bool) : (s.setBusy h v).installed = s.installed := rfl
@[simp] theorem State.setBusy_phase (s : State) (h : Word) (v : Bool) : (s.setBusy h v).phase = s.phase := rfl
@[simp] theorem State.setBusy_curFn (s : State) (h : Word) (v : Bool) : (s.setBusy h v).curFn = s.curFn := rfl
@[simp] theorem State.setBusy_curCtx (s : State) (h : Word) (v : Bool) : (s.setBusy h v).curCtx = s.curCtx := rfl
@[simp] theorem State.setBusy_curHandle (s : State) (h : Word) (v : Bool) : (s.setBusy h v).curHandle = s.curHandle := rfl
@[simp] theorem State.setBusy_banks (s : State) (h : Word) (v : Bool) : (s.setBusy h v).banks = s.banks := rfl
@[simp] theorem State.setBusy_faults (s : State) (h : Word) (v : Bool) : (s.setBusy h v).faults = s.faults := rfl
@[simp] theorem State.setBusy_store (s : State) (h : Word) (v : Bool) : (s.setBusy h v).store = Store.modify s.store h fun r => { r with busy := v } := rfl
@[simp] theorem State.setBusy_armed (s : State) (h : Word) (v : Bool) : (s.setBusy h v).armed = s.armed := rfl
@[simp] theorem State.setBusy_flows (s : State) (h : Word) (v : Bool) : (s.setBusy h v).flows = s.flows := rfl
@[simp] theorem State.setBusy_sched (s : State) (h : Word) (v : Bool) : (s.setBusy h v).sched = s.sched := rfl
@[simp] theorem State.setBusy_draws (s : State) (h : Word) (v : Bool) : (s.setBusy h v).draws = s.draws := rfl

@[simp] theorem State.setResult_params (s : State) (ctx : Context) (st : Status) (j : Option (Fin 8)) (x : BitVec 3) : (s.setResult ctx st j x).params = s.params := rfl
@[simp] theorem State.setResult_slots (s : State) (ctx : Context) (st : Status) (j : Option (Fin 8)) (x : BitVec 3) : (s.setResult ctx st j x).slots = s.slots := rfl
@[simp] theorem State.setResult_en (s : State) (ctx : Context) (st : Status) (j : Option (Fin 8)) (x : BitVec 3) : (s.setResult ctx st j x).en = s.en := rfl
@[simp] theorem State.setResult_pend (s : State) (ctx : Context) (st : Status) (j : Option (Fin 8)) (x : BitVec 3) : (s.setResult ctx st j x).pend = s.pend := rfl
@[simp] theorem State.setResult_installed (s : State) (ctx : Context) (st : Status) (j : Option (Fin 8)) (x : BitVec 3) : (s.setResult ctx st j x).installed = s.installed := rfl
@[simp] theorem State.setResult_phase (s : State) (ctx : Context) (st : Status) (j : Option (Fin 8)) (x : BitVec 3) : (s.setResult ctx st j x).phase = s.phase := rfl
@[simp] theorem State.setResult_curFn (s : State) (ctx : Context) (st : Status) (j : Option (Fin 8)) (x : BitVec 3) : (s.setResult ctx st j x).curFn = s.curFn := rfl
@[simp] theorem State.setResult_curCtx (s : State) (ctx : Context) (st : Status) (j : Option (Fin 8)) (x : BitVec 3) : (s.setResult ctx st j x).curCtx = s.curCtx := rfl
@[simp] theorem State.setResult_curHandle (s : State) (ctx : Context) (st : Status) (j : Option (Fin 8)) (x : BitVec 3) : (s.setResult ctx st j x).curHandle = s.curHandle := rfl
@[simp] theorem State.setResult_banks (s : State) (ctx : Context) (st : Status) (j : Option (Fin 8)) (x : BitVec 3) : (s.setResult ctx st j x).banks = s.banks.set ctx { s.banks.get ctx with result := resultWord st j x } := rfl
@[simp] theorem State.setResult_faults (s : State) (ctx : Context) (st : Status) (j : Option (Fin 8)) (x : BitVec 3) : (s.setResult ctx st j x).faults = s.faults := rfl
@[simp] theorem State.setResult_store (s : State) (ctx : Context) (st : Status) (j : Option (Fin 8)) (x : BitVec 3) : (s.setResult ctx st j x).store = s.store := rfl
@[simp] theorem State.setResult_armed (s : State) (ctx : Context) (st : Status) (j : Option (Fin 8)) (x : BitVec 3) : (s.setResult ctx st j x).armed = s.armed := rfl
@[simp] theorem State.setResult_flows (s : State) (ctx : Context) (st : Status) (j : Option (Fin 8)) (x : BitVec 3) : (s.setResult ctx st j x).flows = s.flows := rfl
@[simp] theorem State.setResult_sched (s : State) (ctx : Context) (st : Status) (j : Option (Fin 8)) (x : BitVec 3) : (s.setResult ctx st j x).sched = s.sched := rfl
@[simp] theorem State.setResult_draws (s : State) (ctx : Context) (st : Status) (j : Option (Fin 8)) (x : BitVec 3) : (s.setResult ctx st j x).draws = s.draws := rfl

@[simp] theorem State.enterDispatch_params (s : State) : s.enterDispatch.params = s.params := rfl
@[simp] theorem State.enterDispatch_slots (s : State) : s.enterDispatch.slots = s.slots := rfl
@[simp] theorem State.enterDispatch_en (s : State) : s.enterDispatch.en = s.en := rfl
@[simp] theorem State.enterDispatch_pend (s : State) : s.enterDispatch.pend = s.pend := rfl
@[simp] theorem State.enterDispatch_installed (s : State) : s.enterDispatch.installed = s.installed := rfl
@[simp] theorem State.enterDispatch_phase (s : State) : s.enterDispatch.phase = .scan 0 := rfl
@[simp] theorem State.enterDispatch_curFn (s : State) : s.enterDispatch.curFn = s.curFn := rfl
@[simp] theorem State.enterDispatch_curCtx (s : State) : s.enterDispatch.curCtx = s.curCtx := rfl
@[simp] theorem State.enterDispatch_curHandle (s : State) : s.enterDispatch.curHandle = s.curHandle := rfl
@[simp] theorem State.enterDispatch_banks (s : State) : s.enterDispatch.banks = s.banks := rfl
@[simp] theorem State.enterDispatch_faults (s : State) : s.enterDispatch.faults = s.faults := rfl
@[simp] theorem State.enterDispatch_store (s : State) : s.enterDispatch.store = s.store := rfl
@[simp] theorem State.enterDispatch_armed (s : State) : s.enterDispatch.armed = s.armed := rfl
@[simp] theorem State.enterDispatch_flows (s : State) : s.enterDispatch.flows = s.flows := rfl
@[simp] theorem State.enterDispatch_sched (s : State) : s.enterDispatch.sched = s.sched := rfl
@[simp] theorem State.enterDispatch_draws (s : State) : s.enterDispatch.draws = s.draws := rfl

@[simp] theorem State.enterCallback_params (s : State) (i : Fin 8) (a b c : Word) : (s.enterCallback i a b c).params = s.params := rfl
@[simp] theorem State.enterCallback_slots (s : State) (i : Fin 8) (a b c : Word) : (s.enterCallback i a b c).slots = s.slots := rfl
@[simp] theorem State.enterCallback_en (s : State) (i : Fin 8) (a b c : Word) : (s.enterCallback i a b c).en = s.en := rfl
@[simp] theorem State.enterCallback_pend (s : State) (i : Fin 8) (a b c : Word) : (s.enterCallback i a b c).pend = s.pend := rfl
@[simp] theorem State.enterCallback_installed (s : State) (i : Fin 8) (a b c : Word) : (s.enterCallback i a b c).installed = s.installed := rfl
@[simp] theorem State.enterCallback_phase (s : State) (i : Fin 8) (a b c : Word) : (s.enterCallback i a b c).phase = .inCallback i := rfl
@[simp] theorem State.enterCallback_curFn (s : State) (i : Fin 8) (a b c : Word) : (s.enterCallback i a b c).curFn = a := rfl
@[simp] theorem State.enterCallback_curCtx (s : State) (i : Fin 8) (a b c : Word) : (s.enterCallback i a b c).curCtx = b := rfl
@[simp] theorem State.enterCallback_curHandle (s : State) (i : Fin 8) (a b c : Word) : (s.enterCallback i a b c).curHandle = c := rfl
@[simp] theorem State.enterCallback_banks (s : State) (i : Fin 8) (a b c : Word) : (s.enterCallback i a b c).banks = s.banks := rfl
@[simp] theorem State.enterCallback_faults (s : State) (i : Fin 8) (a b c : Word) : (s.enterCallback i a b c).faults = s.faults := rfl
@[simp] theorem State.enterCallback_store (s : State) (i : Fin 8) (a b c : Word) : (s.enterCallback i a b c).store = s.store := rfl
@[simp] theorem State.enterCallback_armed (s : State) (i : Fin 8) (a b c : Word) : (s.enterCallback i a b c).armed = s.armed := rfl
@[simp] theorem State.enterCallback_flows (s : State) (i : Fin 8) (a b c : Word) : (s.enterCallback i a b c).flows = s.flows := rfl
@[simp] theorem State.enterCallback_sched (s : State) (i : Fin 8) (a b c : Word) : (s.enterCallback i a b c).sched = s.sched := rfl
@[simp] theorem State.enterCallback_draws (s : State) (i : Fin 8) (a b c : Word) : (s.enterCallback i a b c).draws = s.draws := rfl

@[simp] theorem State.returnFromCallback_params (s : State) (i : Fin 8) : (s.returnFromCallback i).params = s.params := rfl
@[simp] theorem State.returnFromCallback_slots (s : State) (i : Fin 8) : (s.returnFromCallback i).slots = s.slots := rfl
@[simp] theorem State.returnFromCallback_en (s : State) (i : Fin 8) : (s.returnFromCallback i).en = s.en := rfl
@[simp] theorem State.returnFromCallback_pend (s : State) (i : Fin 8) : (s.returnFromCallback i).pend = s.pend := rfl
@[simp] theorem State.returnFromCallback_installed (s : State) (i : Fin 8) : (s.returnFromCallback i).installed = s.installed := rfl
@[simp] theorem State.returnFromCallback_phase (s : State) (i : Fin 8) : (s.returnFromCallback i).phase = .scan i.succ := rfl
@[simp] theorem State.returnFromCallback_curFn (s : State) (i : Fin 8) : (s.returnFromCallback i).curFn = 0 := rfl
@[simp] theorem State.returnFromCallback_curCtx (s : State) (i : Fin 8) : (s.returnFromCallback i).curCtx = 0 := rfl
@[simp] theorem State.returnFromCallback_curHandle (s : State) (i : Fin 8) : (s.returnFromCallback i).curHandle = 0 := rfl
@[simp] theorem State.returnFromCallback_banks (s : State) (i : Fin 8) : (s.returnFromCallback i).banks = s.banks.set .irq { s.banks.irq with result := resultWord .ok (some Config.scanOrder[i]) 0 } := rfl
@[simp] theorem State.returnFromCallback_faults (s : State) (i : Fin 8) : (s.returnFromCallback i).faults = s.faults := rfl
@[simp] theorem State.returnFromCallback_store (s : State) (i : Fin 8) : (s.returnFromCallback i).store = s.store := rfl
@[simp] theorem State.returnFromCallback_armed (s : State) (i : Fin 8) : (s.returnFromCallback i).armed = s.armed := rfl
@[simp] theorem State.returnFromCallback_flows (s : State) (i : Fin 8) : (s.returnFromCallback i).flows = s.flows := rfl
@[simp] theorem State.returnFromCallback_sched (s : State) (i : Fin 8) : (s.returnFromCallback i).sched = s.sched := rfl
@[simp] theorem State.returnFromCallback_draws (s : State) (i : Fin 8) : (s.returnFromCallback i).draws = s.draws := rfl

/-! ### The fault set -/

/-- Recording a fault writes the fault set and nothing else. -/
theorem State.recordFault_eq (s : State) (r : FaultRecord) :
    s.recordFault r = s.withFaults (if r ∈ s.faults then s.faults else s.faults ++ [r]) := by
  unfold State.recordFault
  split
  · rfl
  · rfl

/-- The set after recording: the old records and the new one (10_state.md R45). -/
theorem State.mem_recordFault {s : State} {r f : FaultRecord} :
    f ∈ (s.recordFault r).faults ↔ f ∈ s.faults ∨ f = r := by
  rw [State.recordFault_eq]
  by_cases h : r ∈ s.faults
  · simp only [State.withFaults_faults, h, if_true]
    exact ⟨Or.inl, fun h' => h'.elim id (fun e => e ▸ h)⟩
  · simp [h]

/-- A set stays without repeats. -/
theorem State.recordFault_nodup {s : State} {r : FaultRecord} (h : s.faults.Nodup) :
    (s.recordFault r).faults.Nodup := by
  rw [State.recordFault_eq]
  by_cases hr : r ∈ s.faults
  · simpa [hr] using h
  · simpa [hr, List.nodup_append] using ⟨h, fun a ha e => hr (e ▸ ha)⟩

@[simp] theorem State.recordFault_params (s : State) (r : FaultRecord) : (s.recordFault r).params = s.params := by
  rw [State.recordFault_eq]; rfl
@[simp] theorem State.recordFault_slots (s : State) (r : FaultRecord) : (s.recordFault r).slots = s.slots := by
  rw [State.recordFault_eq]; rfl
@[simp] theorem State.recordFault_en (s : State) (r : FaultRecord) : (s.recordFault r).en = s.en := by
  rw [State.recordFault_eq]; rfl
@[simp] theorem State.recordFault_pend (s : State) (r : FaultRecord) : (s.recordFault r).pend = s.pend := by
  rw [State.recordFault_eq]; rfl
@[simp] theorem State.recordFault_installed (s : State) (r : FaultRecord) : (s.recordFault r).installed = s.installed := by
  rw [State.recordFault_eq]; rfl
@[simp] theorem State.recordFault_phase (s : State) (r : FaultRecord) : (s.recordFault r).phase = s.phase := by
  rw [State.recordFault_eq]; rfl
@[simp] theorem State.recordFault_curFn (s : State) (r : FaultRecord) : (s.recordFault r).curFn = s.curFn := by
  rw [State.recordFault_eq]; rfl
@[simp] theorem State.recordFault_curCtx (s : State) (r : FaultRecord) : (s.recordFault r).curCtx = s.curCtx := by
  rw [State.recordFault_eq]; rfl
@[simp] theorem State.recordFault_curHandle (s : State) (r : FaultRecord) : (s.recordFault r).curHandle = s.curHandle := by
  rw [State.recordFault_eq]; rfl
@[simp] theorem State.recordFault_banks (s : State) (r : FaultRecord) : (s.recordFault r).banks = s.banks := by
  rw [State.recordFault_eq]; rfl
@[simp] theorem State.recordFault_store (s : State) (r : FaultRecord) : (s.recordFault r).store = s.store := by
  rw [State.recordFault_eq]; rfl
@[simp] theorem State.recordFault_armed (s : State) (r : FaultRecord) : (s.recordFault r).armed = s.armed := by
  rw [State.recordFault_eq]; rfl
@[simp] theorem State.recordFault_flows (s : State) (r : FaultRecord) : (s.recordFault r).flows = s.flows := by
  rw [State.recordFault_eq]; rfl
@[simp] theorem State.recordFault_sched (s : State) (r : FaultRecord) : (s.recordFault r).sched = s.sched := by
  rw [State.recordFault_eq]; rfl
@[simp] theorem State.recordFault_draws (s : State) (r : FaultRecord) : (s.recordFault r).draws = s.draws := by
  rw [State.recordFault_eq]; rfl

/-! ### Channel bits -/

/-- Writing one bit of a channel mask. -/
theorem getLsbD_writeBit (m : Word) (c d : Nat) (v : Bool) :
    (writeBit m c v).getLsbD d = if d = c ∧ c < 32 then v else m.getLsbD d := by
  unfold writeBit
  by_cases h : d = c
  · subst h
    by_cases hc : d < 32
    · cases v <;> simp [hc]
    · cases v <;> simp [hc, BitVec.getLsbD_of_ge _ _ (Nat.le_of_not_lt hc)]
  · have h1 : (1#32 <<< c).getLsbD d = false := by
      rw [BitVec.getLsbD_shiftLeft]
      by_cases hd : d < c
      · simp [hd]
      · have : d - c ≠ 0 := by omega
        simp [BitVec.getLsbD_one, this]
    cases v
    · by_cases hd : d < 32
      · simp only [Bool.false_eq_true, if_false, h, false_and, BitVec.getLsbD_and, BitVec.getLsbD_not, h1]
        simp [hd]
      · simp [h, BitVec.getLsbD_of_ge m d (Nat.le_of_not_lt hd)]
    · simp only [if_true, h, false_and, if_false, BitVec.getLsbD_or, h1, Bool.or_false]

theorem State.enabled_setEnabled (s : State) (c d : Nat) (v : Bool) :
    (s.setEnabled c v).enabled d = if d = c ∧ c < 32 then v else s.enabled d := getLsbD_writeBit ..

theorem State.pending_setPending (s : State) (c d : Nat) (v : Bool) :
    (s.setPending c v).pending d = if d = c ∧ c < 32 then v else s.pending d := getLsbD_writeBit ..

theorem State.isArmed_setArmed (s : State) (c d : Nat) (v : Bool) :
    (s.setArmed c v).isArmed d = if d = c ∧ c < 32 then v else s.isArmed d := getLsbD_writeBit ..

/-! ### Slots -/

theorem State.slot_setSlot (s : State) (i j : Fin 8) (v : Slot) :
    (s.setSlot i v).slot j = if i = j then v else s.slot j := by
  simp only [State.slot, State.setSlot_slots, Fin.getElem_fin]
  rw [Vector.getElem_set]
  simp [Fin.ext_iff]

@[simp] theorem mem_allSlots (j : Fin 8) : j ∈ allSlots := by
  revert j; decide

theorem allSlots_sorted : allSlots.Pairwise (· < ·) := by decide

/-- The TX table is the slots below 4, the RX table the rest (10_state.md R26). -/
theorem mem_tableSlots (d : Dir) (j : Fin 8) : j ∈ tableSlots d ↔ (d = .tx ↔ j.val < 4) := by
  revert j; cases d <;> decide

theorem tableSlots_sorted (d : Dir) : (tableSlots d).Pairwise (· < ·) := by cases d <;> decide

/-- Each table has as many slots as 00_scope.md R8 says. -/
theorem tableSlots_length (d : Dir) :
    (tableSlots d).length = match d with | .tx => Config.nTxSlots | .rx => Config.nRxSlots := by
  cases d <;> rfl

/-- In a sorted list the first hit of a search is the least. -/
theorem find?_sorted {l : List (Fin 8)} (hl : l.Pairwise (· < ·)) (p : Fin 8 → Bool) (j : Fin 8) :
    l.find? p = some j ↔ j ∈ l ∧ p j = true ∧ ∀ k ∈ l, k < j → p k = false := by
  induction l with
  | nil => simp
  | cons a l ih =>
    obtain ⟨ha, hl⟩ := List.pairwise_cons.mp hl
    rw [List.find?_cons]
    cases hpa : p a with
    | true =>
      refine ⟨fun h => ?_, fun ⟨hj, hp, hk⟩ => ?_⟩
      · cases h
        refine ⟨List.mem_cons_self, hpa, fun k hk hlt => ?_⟩
        rcases List.mem_cons.mp hk with rfl | hk
        · exact absurd hlt (lt_irrefl _)
        · exact absurd hlt (lt_asymm (ha k hk))
      · rcases List.mem_cons.mp hj with rfl | hj
        · rfl
        · exact absurd (hk a List.mem_cons_self (ha j hj)) (by simp [hpa])
    | false =>
      simp only [ih hl]
      refine ⟨fun ⟨hj, hp, hk⟩ => ⟨List.mem_cons_of_mem _ hj, hp, fun k hk' hlt => ?_⟩,
        fun ⟨hj, hp, hk⟩ => ⟨?_, hp, fun k hk' hlt => hk k (List.mem_cons_of_mem _ hk') hlt⟩⟩
      · rcases List.mem_cons.mp hk' with rfl | hk'
        · exact hpa
        · exact hk k hk' hlt
      · rcases List.mem_cons.mp hj with rfl | hj
        · rw [hpa] at hp; cases hp
        · exact hj

/-- The search finds the least valid slot that satisfies `p`. -/
theorem State.findSlot_eq_some {s : State} {p : Slot → Bool} {j : Fin 8} :
    s.findSlot p = some j ↔ ((s.slot j).valid = true ∧ p (s.slot j) = true) ∧
      ∀ k < j, ¬ ((s.slot k).valid = true ∧ p (s.slot k) = true) := by
  unfold State.findSlot
  rw [find?_sorted allSlots_sorted]
  simp

/-- The search fails iff no valid slot satisfies `p`. -/
theorem State.findSlot_eq_none {s : State} {p : Slot → Bool} :
    s.findSlot p = none ↔ ∀ j, ¬ ((s.slot j).valid = true ∧ p (s.slot j) = true) := by
  unfold State.findSlot
  simp

/-- The first free slot of a table (40_registry.md R90). -/
theorem State.freeSlot_eq_some {s : State} {d : Dir} {j : Fin 8} :
    s.freeSlot d = some j ↔ j ∈ tableSlots d ∧ (s.slot j).valid = false ∧
      ∀ k ∈ tableSlots d, k < j → (s.slot k).valid = true := by
  unfold State.freeSlot
  rw [find?_sorted (tableSlots_sorted d)]
  simp

/-- A table is full iff it has no free slot. -/
theorem State.freeSlot_eq_none {s : State} {d : Dir} :
    s.freeSlot d = none ↔ ∀ j ∈ tableSlots d, (s.slot j).valid = true := by
  unfold State.freeSlot
  simp

/-- Some valid slot holds the channel. -/
theorem State.channelHeld_iff {s : State} {c : Nat} :
    s.channelHeld c = true ↔ ∃ j, (s.slot j).valid = true ∧ (s.slot j).chan.toNat = c := by
  simp [State.channelHeld]

/-- In this spec the scan visits the slots in index order (10_state.md R34). -/
@[simp] theorem scanOrder_getElem (k : Fin 8) : Config.scanOrder[k] = k := by
  revert k; decide

@[simp] theorem scanOrder_getElem_val (k : Fin 8) : Config.scanOrder[k.val] = k := scanOrder_getElem k

/-! ### RESULT -/

/-- RESULT as a number: the three fields side by side (10_state.md R24). -/
theorem resultWord_toNat (st : Status) (j : Option (Fin 8)) (x : BitVec 3) :
    (resultWord st j x).toNat = x.toNat * 65536 + (slotCode j).toNat * 256 + (statusCode st).toNat := by
  simp only [resultWord, toNat_append_mul, BitVec.toNat_ofNat]
  omega

/-- RESULT's bits 31:19 are 0 (10_state.md R24). -/
theorem resultWord_lt (st : Status) (j : Option (Fin 8)) (x : BitVec 3) :
    (resultWord st j x).toNat < 2 ^ 19 := by
  have h1 := (statusCode st).isLt
  have h2 := (slotCode j).isLt
  have h3 := x.isLt
  rw [resultWord_toNat]
  omega

/-- RESULT's STATUS field (10_state.md R24). -/
theorem resultWord_status (st : Status) (j : Option (Fin 8)) (x : BitVec 3) :
    (resultWord st j x).toNat % 256 = (statusCode st).toNat := by
  have h1 := (statusCode st).isLt
  rw [resultWord_toNat]
  omega

/-- RESULT's bits 18:16 are the extra field (10_state.md R24). -/
theorem resultWord_extra (st : Status) (j : Option (Fin 8)) (x : BitVec 3) :
    (resultWord st j x).extractLsb' 16 3 = x := by
  have h1 := (statusCode st).isLt
  have h2 := (slotCode j).isLt
  have h3 := x.isLt
  apply BitVec.eq_of_toNat_eq
  rw [BitVec.extractLsb'_toNat, resultWord_toNat, Nat.shiftRight_eq_div_pow]
  omega

theorem slotCode_some (j : Fin 8) : (slotCode (some j)).toNat = j.val := by
  revert j; decide

/-! ### Commands -/

/-- What a command answers in a host context (30_encoding.md R76). -/
theorem command_next {i : Instr} {s : State} {ctx : Context} (h : s.phase.context? = some ctx)
    (body : Context → State) :
    command i s body = .next (if allowedIn i ctx then body ctx else s.setResult ctx .context none 0) := by
  simp [command, h]

/-- A command that answers a next state was issued in a context, and was refused there or ran its body. -/
theorem command_cases {i : Instr} {s t : State} {body : Context → State} (h : command i s body = .next t) :
    ∃ ctx, s.phase.context? = some ctx ∧
      ((allowedIn i ctx = true ∧ t = body ctx) ∨
        (allowedIn i ctx = false ∧ t = s.setResult ctx .context none 0)) := by
  unfold command at h
  split at h
  · cases h
  · rename_i ctx hctx
    cases h
    refine ⟨ctx, hctx, ?_⟩
    cases allowedIn i ctx <;> simp

end Sys2Proof.Machine
end

