-- ==== Sys2Proof/Laws/Store.lean ====
section
/-! SUPPORT. The instance store: reading back what was written, and the canonical form every operation keeps. -/

namespace Sys2Proof.Machine

/-! ### Reading back -/

theorem Store.find?_insert (m : Store) (h k : Word) (r : Record) :
    Store.find? (Store.insert m h r) k = if h = k then some r else Store.find? m k := by
  induction m with
  | nil => simp [Store.insert, Store.find?]
  | cons e m ih =>
    obtain ⟨a, q⟩ := e
    unfold Store.insert
    split
    · simp [Store.find?]
    · split
      · rename_i hak
        subst hak
        by_cases hk : a = k <;> simp [Store.find?, hk]
      · rename_i hak
        by_cases hk : a = k
        · have : h ≠ k := fun e => hak (hk.trans e.symm)
          simp [Store.find?, hk, this]
        · simp [Store.find?, hk, ih]

theorem Store.find?_modify (m : Store) (h k : Word) (f : Record → Record) :
    Store.find? (Store.modify m h f) k = if h = k then (Store.find? m k).map f else Store.find? m k := by
  induction m with
  | nil => simp [Store.modify, Store.find?]
  | cons e m ih =>
    obtain ⟨a, q⟩ := e
    unfold Store.modify
    split
    · rename_i hah
      subst hah
      by_cases hk : a = k <;> simp [Store.find?, hk]
    · rename_i hah
      by_cases hk : a = k
      · have : h ≠ k := fun e => hah (hk.trans e.symm)
        simp [Store.find?, hk, this]
      · simp [Store.find?, hk, ih]

theorem Store.find?_erase_other (m : Store) {h k : Word} (hk : h ≠ k) :
    Store.find? (Store.erase m h) k = Store.find? m k := by
  induction m with
  | nil => rfl
  | cons e m ih =>
    obtain ⟨a, q⟩ := e
    unfold Store.erase
    split
    · rename_i hah
      have : a ≠ k := hah ▸ hk
      simp [Store.find?, this]
    · by_cases hak : a = k <;> simp [Store.find?, hak, ih]

/-- A handle below every listed one is not found. -/
theorem Store.find?_none_of_lt {m : Store} {h : Word} (hm : ∀ e ∈ m, h < e.1) : Store.find? m h = none := by
  induction m with
  | nil => rfl
  | cons e m ih =>
    have he := hm e List.mem_cons_self
    have : e.1 ≠ h := fun e' => BitVec.lt_irrefl h (e' ▸ he)
    simp [Store.find?, this, ih (fun e' h' => hm e' (List.mem_cons_of_mem _ h'))]

theorem Store.find?_erase_same {m : Store} (hm : Store.wf m) (h : Word) :
    Store.find? (Store.erase m h) h = none := by
  obtain ⟨hm, -⟩ := hm
  induction m with
  | nil => rfl
  | cons e m ih =>
    obtain ⟨ha, hm'⟩ := List.pairwise_cons.mp hm
    obtain ⟨a, q⟩ := e
    unfold Store.erase
    split
    · rename_i hah
      subst hah
      exact Store.find?_none_of_lt ha
    · rename_i hah
      simpa [Store.find?, hah] using ih hm'

/-! ### The canonical form -/

theorem Store.wf_nil : Store.wf [] := ⟨List.Pairwise.nil, by simp⟩

/-- Every entry of the changed list was listed, but for the one inserted. -/
theorem Store.mem_insert {m : Store} {h : Word} {r : Record} {e : Word × Record}
    (he : e ∈ Store.insert m h r) : e = (h, r) ∨ e ∈ m := by
  induction m with
  | nil => exact Or.inl (by simpa [Store.insert] using he)
  | cons x m ih =>
    obtain ⟨a, q⟩ := x
    unfold Store.insert at he
    split at he
    · rcases List.mem_cons.mp he with rfl | he
      · exact Or.inl rfl
      · exact Or.inr he
    · split at he
      · rcases List.mem_cons.mp he with rfl | he
        · exact Or.inl rfl
        · exact Or.inr (List.mem_cons_of_mem _ he)
      · rcases List.mem_cons.mp he with rfl | he
        · exact Or.inr List.mem_cons_self
        · exact (ih he).imp id (List.mem_cons_of_mem _)

theorem Store.wf_insert {m : Store} (hm : Store.wf m) {h : Word} (hh : h ≠ 0) (r : Record) :
    Store.wf (Store.insert m h r) := by
  obtain ⟨hs, hz⟩ := hm
  refine ⟨?_, fun e he => (Store.mem_insert he).elim (fun e' => e' ▸ hh) (hz e)⟩
  clear hz
  induction m with
  | nil => simp [Store.insert]
  | cons x m ih =>
    obtain ⟨ha, hs'⟩ := List.pairwise_cons.mp hs
    obtain ⟨a, q⟩ := x
    unfold Store.insert
    split
    · rename_i hlt
      refine List.pairwise_cons.mpr ⟨fun e he => ?_, hs⟩
      rcases List.mem_cons.mp he with rfl | he
      · exact hlt
      · exact BitVec.lt_trans hlt (ha e he)
    · rename_i hlt
      split
      · rename_i hah
        subst hah
        exact List.pairwise_cons.mpr ⟨ha, hs'⟩
      · rename_i hah
        refine List.pairwise_cons.mpr ⟨fun e he => ?_, ih hs'⟩
        rcases Store.mem_insert he with rfl | he
        · bv_omega
        · exact ha e he

theorem Store.erase_sublist (m : Store) (h : Word) : (Store.erase m h).Sublist m := by
  induction m with
  | nil => exact List.Sublist.refl _
  | cons x m ih =>
    obtain ⟨a, q⟩ := x
    unfold Store.erase
    split
    · exact List.sublist_cons_self _ _
    · exact ih.cons_cons _

theorem Store.wf_erase {m : Store} (hm : Store.wf m) (h : Word) : Store.wf (Store.erase m h) :=
  ⟨hm.1.sublist (Store.erase_sublist m h), fun e he => hm.2 e ((Store.erase_sublist m h).subset he)⟩

/-- Changing records keeps the list of handles. -/
theorem Store.modify_keys (m : Store) (h : Word) (f : Record → Record) :
    (Store.modify m h f).map Prod.fst = m.map Prod.fst := by
  induction m with
  | nil => rfl
  | cons x m ih =>
    obtain ⟨a, q⟩ := x
    unfold Store.modify
    split
    · rfl
    · simp [ih]

/-- The canonical form speaks of the handles alone. -/
theorem Store.wf_iff_keys (m : Store) :
    Store.wf m ↔ (m.map Prod.fst).Pairwise (· < ·) ∧ ∀ k ∈ m.map Prod.fst, k ≠ 0 := by
  simp [Store.wf, List.pairwise_map]

theorem Store.wf_modify {m : Store} (hm : Store.wf m) (h : Word) (f : Record → Record) :
    Store.wf (Store.modify m h f) := by
  rw [Store.wf_iff_keys, Store.modify_keys, ← Store.wf_iff_keys]
  exact hm

/-! ### Live records -/

theorem State.record?_zero (s : State) : s.record? 0 = none := rfl

/-- Only the store decides which records are live. -/
theorem State.record?_congr {s t : State} (h : t.store = s.store) : t.record? = s.record? := by
  funext k
  simp [State.record?, h]

/-- After a write to record `h`, the other records read as before. -/
theorem State.record?_updateRecord (s : State) (h k : Word) (f : Record → Record) :
    (s.updateRecord h f).record? k = if h = k then (s.record? k).map f else s.record? k := by
  simp only [State.record?, State.updateRecord_store, Store.find?_modify]
  split
  · split <;> rfl
  · rfl

theorem State.record?_setBusy (s : State) (h k : Word) (v : Bool) :
    (s.setBusy h v).record? k =
      if h = k then (s.record? k).map (fun r => { r with busy := v }) else s.record? k :=
  State.record?_updateRecord ..

end Sys2Proof.Machine
end

