-- ==== Sys2Proof/Laws/Commands.lean ====
section
/-! SUPPORT. What a command can do, said once: every next state of `exec` is one of the listed effects. -/

namespace Sys2Proof.Machine

/-- The effects of commands issued in context `ctx`, each with the conditions under which it happens. -/
inductive CommandEffect (i : Instr) (s : State) (ctx : Context) : State → Prop where
  /-- Only RESULT: every failing status, and the commands that write nothing else. E_CONTEXT is reported only where the
  context table refuses the command. -/
  | resultOnly (st : Status) (j : Option (Fin 8)) (x : BitVec 3) (hst : st = .context → allowedIn i ctx = false) :
      CommandEffect i s ctx (s.setResult ctx st j x)
  /-- Only the fault set: the handle operand is not live. -/
  | dangling (hl : s.record? (s.argHandle ctx) = none) :
      CommandEffect i s ctx (s.recordFault (.danglingHandle (s.argHandle ctx)))
  | installs (hi : i = .install) : CommandEffect i s ctx ((s.withInstalled true).setResult ctx .ok none 0)
  | registers (j : Fin 8) (r : Record) (hi : i = .register) (hc : ctx = .main)
      (hr : s.record? (s.argHandle ctx) = some r) (hch : s.isChannel r.chan.toNat = true)
      (hd : s.duplicateOf (s.argHandle ctx) r.chan = none) (he : s.enabled r.chan.toNat = false)
      (hf : s.freeSlot r.dir = some j) :
      CommandEffect i s ctx
        ((s.setSlot j { valid := true, handle := s.argHandle ctx, chan := r.chan }).setResult ctx .ok (some j) 0)
  | unregisters (j : Fin 8) (hi : i = .unregister) (hc : ctx = .main) (hj : s.slotOf (s.argHandle ctx) = some j)
      (he : s.enabled (s.slot j).chan.toNat = false) :
      CommandEffect i s ctx ((s.setSlot j Slot.empty).setResult ctx .ok (some j) 0)
  | setsCallback (r : Record) (hi : i = .setCallback) (hr : s.record? (s.argHandle ctx) = some r) :
      CommandEffect i s ctx
        ((s.updateRecord (s.argHandle ctx) fun r => { r with cb := s.argFn ctx, ctx := s.argCtx ctx }).setResult ctx
          .ok none 0)
  | setsBusy (r : Record) (hi : i = .busySet) (hr : s.record? (s.argHandle ctx) = some r) (hb : r.busy = false) :
      CommandEffect i s ctx ((s.setBusy (s.argHandle ctx) true).setResult ctx .ok none 0)
  | clearsBusy (r : Record) (hi : i = .busyClear) (hr : s.record? (s.argHandle ctx) = some r) :
      CommandEffect i s ctx ((s.setBusy (s.argHandle ctx) false).setResult ctx .ok none 0)
  | enables (c : Byte) (hi : i = .srcEnable c) (hc : s.isChannel c.toNat = true) :
      CommandEffect i s ctx ((s.setEnabled c.toNat true).setResult ctx .ok none 0)
  | disables (c : Byte) (hi : i = .srcDisable c) (hc : s.isChannel c.toNat = true) :
      CommandEffect i s ctx ((s.setEnabled c.toNat false).setResult ctx .ok none 0)
  | acknowledges (c : Byte) (hi : i = .srcAck c) (hc : s.isChannel c.toNat = true) :
      CommandEffect i s ctx ((s.setPending c.toNat false).setResult ctx .ok none 0)
  | returns (k : Fin 8) (hi : i = .cbReturn) (hc : ctx = .irq) (hp : s.phase = .inCallback k) :
      CommandEffect i s ctx (s.returnFromCallback k)

/-- A handle operand is dangling, or names the record the body gets. -/
theorem withRecord_cases (s : State) (ctx : Context) (body : Word → Record → State) :
    (s.record? (s.argHandle ctx) = none ∧
      withRecord s ctx body = s.recordFault (.danglingHandle (s.argHandle ctx))) ∨
    (∃ r, s.record? (s.argHandle ctx) = some r ∧ withRecord s ctx body = body (s.argHandle ctx) r) := by
  unfold withRecord
  cases s.record? (s.argHandle ctx) with
  | none => exact Or.inl ⟨rfl, rfl⟩
  | some r => exact Or.inr ⟨r, rfl, rfl⟩

/-- A CHAN operand names no source, or the one the body gets. -/
theorem withChannel_cases (s : State) (ctx : Context) (chan : Byte) (body : Nat → State) :
    (s.isChannel chan.toNat = false ∧ withChannel s ctx chan body = s.setResult ctx .invalidChannel none 0) ∨
    (s.isChannel chan.toNat = true ∧ withChannel s ctx chan body = body chan.toNat) := by
  unfold withChannel
  cases s.isChannel chan.toNat <;> simp

/-- REGISTER of a live record writes only RESULT, or fills a free slot. -/
theorem registerRecord_cases (s : State) (ctx : Context) (h : Word) (r : Record) :
    (∃ st j, st ≠ .context ∧ registerRecord s ctx h r = s.setResult ctx st j 0) ∨
    (∃ j, s.isChannel r.chan.toNat = true ∧ s.duplicateOf h r.chan = none ∧ s.enabled r.chan.toNat = false ∧
      s.freeSlot r.dir = some j ∧
      registerRecord s ctx h r =
        (s.setSlot j { valid := true, handle := h, chan := r.chan }).setResult ctx .ok (some j) 0) := by
  unfold registerRecord
  cases s.isChannel r.chan.toNat with
  | false => exact Or.inl ⟨_, _, by decide, rfl⟩
  | true =>
    cases s.duplicateOf h r.chan with
    | some j => exact Or.inl ⟨_, _, by decide, rfl⟩
    | none =>
      cases s.enabled r.chan.toNat with
      | true => exact Or.inl ⟨_, _, by decide, rfl⟩
      | false =>
        cases s.freeSlot r.dir with
        | none => exact Or.inl ⟨_, _, by decide, rfl⟩
        | some j => exact Or.inr ⟨j, rfl, rfl, rfl, rfl, rfl⟩

/-- UNREGISTER writes only RESULT, or empties the slot that holds the handle. -/
theorem unregisterHandle_cases (s : State) (ctx : Context) (h : Word) :
    (∃ st j, st ≠ .context ∧ unregisterHandle s ctx h = s.setResult ctx st j 0) ∨
    (∃ j, s.slotOf h = some j ∧ s.enabled (s.slot j).chan.toNat = false ∧
      unregisterHandle s ctx h = (s.setSlot j Slot.empty).setResult ctx .ok (some j) 0) := by
  unfold unregisterHandle
  cases s.slotOf h with
  | none => exact Or.inl ⟨_, _, by decide, rfl⟩
  | some j =>
    cases he : s.enabled (s.slot j).chan.toNat with
    | true => exact Or.inl ⟨.srcEnabled, some j, by decide, by simp [he]⟩
    | false => exact Or.inr ⟨j, rfl, he, by simp [he]⟩

/-- Every next state of `exec` is one of the listed effects, in the phase's context. -/
theorem exec_effect {i : Instr} {s t : State} (h : exec i s = .next t) :
    ∃ ctx, s.phase.context? = some ctx ∧ CommandEffect i s ctx t := by
  cases i with
  | nop =>
    obtain ⟨ctx, hctx, ⟨-, rfl⟩ | ⟨hn, rfl⟩⟩ := command_cases h
    · exact ⟨ctx, hctx, .resultOnly _ _ _ nofun⟩
    · exact ⟨ctx, hctx, .resultOnly _ _ _ fun _ => hn⟩
  | install =>
    obtain ⟨ctx, hctx, ⟨-, rfl⟩ | ⟨hn, rfl⟩⟩ := command_cases h
    · exact ⟨ctx, hctx, .installs rfl⟩
    · exact ⟨ctx, hctx, .resultOnly _ _ _ fun _ => hn⟩
  | register =>
    obtain ⟨ctx, hctx, ⟨ha, rfl⟩ | ⟨hn, rfl⟩⟩ := command_cases h
    · refine ⟨ctx, hctx, ?_⟩
      have hm : ctx = .main := by cases ctx <;> simp [allowedIn] at ha ⊢
      obtain ⟨hl, e⟩ | ⟨r, hr, e⟩ := withRecord_cases s ctx fun h r => registerRecord s ctx h r
      · exact e ▸ .dangling hl
      · obtain ⟨st, j, hst, e'⟩ | ⟨j, h1, h2, h3, h4, e'⟩ := registerRecord_cases s ctx (s.argHandle ctx) r
        · rw [e, e']; exact .resultOnly _ _ _ (fun h => absurd h hst)
        · rw [e, e']; exact .registers j r rfl hm hr h1 h2 h3 h4
    · exact ⟨ctx, hctx, .resultOnly _ _ _ fun _ => hn⟩
  | unregister =>
    obtain ⟨ctx, hctx, ⟨ha, rfl⟩ | ⟨hn, rfl⟩⟩ := command_cases h
    · refine ⟨ctx, hctx, ?_⟩
      have hm : ctx = .main := by cases ctx <;> simp [allowedIn] at ha ⊢
      obtain ⟨st, j, hst, e⟩ | ⟨j, h1, h2, e⟩ := unregisterHandle_cases s ctx (s.argHandle ctx)
      · rw [e]; exact .resultOnly _ _ _ (fun h => absurd h hst)
      · rw [e]; exact .unregisters j rfl hm h1 h2
    · exact ⟨ctx, hctx, .resultOnly _ _ _ fun _ => hn⟩
  | query =>
    obtain ⟨ctx, hctx, ⟨-, rfl⟩ | ⟨hn, rfl⟩⟩ := command_cases h
    · refine ⟨ctx, hctx, ?_⟩
      obtain ⟨hl, e⟩ | ⟨r, hr, e⟩ :=
        withRecord_cases s ctx fun h r => s.setResult ctx .ok (s.slotOf h) (queryExtra r)
      · exact e ▸ .dangling hl
      · rw [e]; exact .resultOnly _ _ _ nofun
    · exact ⟨ctx, hctx, .resultOnly _ _ _ fun _ => hn⟩
  | setCallback =>
    obtain ⟨ctx, hctx, ⟨-, rfl⟩ | ⟨hn, rfl⟩⟩ := command_cases h
    · refine ⟨ctx, hctx, ?_⟩
      obtain ⟨hl, e⟩ | ⟨r, hr, e⟩ := withRecord_cases s ctx fun h _ =>
        (s.updateRecord h fun r => { r with cb := s.argFn ctx, ctx := s.argCtx ctx }).setResult ctx .ok none 0
      · exact e ▸ .dangling hl
      · rw [e]; exact .setsCallback r rfl hr
    · exact ⟨ctx, hctx, .resultOnly _ _ _ fun _ => hn⟩
  | busySet =>
    obtain ⟨ctx, hctx, ⟨-, rfl⟩ | ⟨hn, rfl⟩⟩ := command_cases h
    · refine ⟨ctx, hctx, ?_⟩
      obtain ⟨hl, e⟩ | ⟨r, hr, e⟩ := withRecord_cases s ctx fun h r =>
        if r.busy then s.setResult ctx .busy none 0 else (s.setBusy h true).setResult ctx .ok none 0
      · exact e ▸ .dangling hl
      · rw [e]
        cases hb : r.busy with
        | true => simpa using .resultOnly _ _ _ nofun
        | false => simpa using .setsBusy r rfl hr hb
    · exact ⟨ctx, hctx, .resultOnly _ _ _ fun _ => hn⟩
  | busyClear =>
    obtain ⟨ctx, hctx, ⟨-, rfl⟩ | ⟨hn, rfl⟩⟩ := command_cases h
    · refine ⟨ctx, hctx, ?_⟩
      obtain ⟨hl, e⟩ | ⟨r, hr, e⟩ := withRecord_cases s ctx fun h _ =>
        (s.setBusy h false).setResult ctx .ok none 0
      · exact e ▸ .dangling hl
      · rw [e]; exact .clearsBusy r rfl hr
    · exact ⟨ctx, hctx, .resultOnly _ _ _ fun _ => hn⟩
  | srcEnable c =>
    obtain ⟨ctx, hctx, ⟨-, rfl⟩ | ⟨hn, rfl⟩⟩ := command_cases h
    · refine ⟨ctx, hctx, ?_⟩
      obtain ⟨-, e⟩ | ⟨hc, e⟩ := withChannel_cases s ctx c fun c =>
        (s.setEnabled c true).setResult ctx .ok none 0
      · rw [e]; exact .resultOnly _ _ _ nofun
      · rw [e]; exact .enables c rfl hc
    · exact ⟨ctx, hctx, .resultOnly _ _ _ fun _ => hn⟩
  | srcDisable c =>
    obtain ⟨ctx, hctx, ⟨-, rfl⟩ | ⟨hn, rfl⟩⟩ := command_cases h
    · refine ⟨ctx, hctx, ?_⟩
      obtain ⟨-, e⟩ | ⟨hc, e⟩ := withChannel_cases s ctx c fun c =>
        (s.setEnabled c false).setResult ctx .ok none 0
      · rw [e]; exact .resultOnly _ _ _ nofun
      · rw [e]; exact .disables c rfl hc
    · exact ⟨ctx, hctx, .resultOnly _ _ _ fun _ => hn⟩
  | srcAck c =>
    obtain ⟨ctx, hctx, ⟨-, rfl⟩ | ⟨hn, rfl⟩⟩ := command_cases h
    · refine ⟨ctx, hctx, ?_⟩
      obtain ⟨-, e⟩ | ⟨hc, e⟩ := withChannel_cases s ctx c fun c =>
        (s.setPending c false).setResult ctx .ok none 0
      · rw [e]; exact .resultOnly _ _ _ nofun
      · rw [e]; exact .acknowledges c rfl hc
    · exact ⟨ctx, hctx, .resultOnly _ _ _ fun _ => hn⟩
  | cbReturn =>
    obtain ⟨ctx, hctx, ⟨ha, e⟩ | ⟨hn, rfl⟩⟩ := command_cases h
    · refine ⟨ctx, hctx, ?_⟩
      have hm : ctx = .irq := by cases ctx <;> simp [allowedIn] at ha ⊢
      obtain ⟨k, hk⟩ := Phase.context_eq_irq.mp (hm ▸ hctx)
      simp only [hk] at e
      exact e ▸ .returns k rfl hm hk
    · exact ⟨ctx, hctx, .resultOnly _ _ _ fun _ => hn⟩

/-- In a host context every command answers a next state. -/
theorem command_completes {i : Instr} {s : State} {ctx : Context} (h : s.phase.context? = some ctx)
    (body : Context → State) : ∃ t, command i s body = .next t := ⟨_, command_next h body⟩

end Sys2Proof.Machine
end

