-- ==== Sys2Proof/Laws/PerInstr.lean ====
section
/-! SUPPORT. One lemma per command: the assembler's word for it is legal and carries its CHAN operand (30_encoding.md R75,
R78). -/

namespace Sys2Proof.Laws.EncodeLegal

/-- The word of a command is legal, and its bits 15:8 are the command's CHAN operand. -/
def Statement (i : Instr) : Prop := legalWord (encode i) = true ∧ chanField (encode i) = chanOperand i

theorem nop : Statement .nop := by unfold Statement; decide
theorem install : Statement .install := by unfold Statement; decide
theorem register : Statement .register := by unfold Statement; decide
theorem unregister : Statement .unregister := by unfold Statement; decide
theorem query : Statement .query := by unfold Statement; decide
theorem setCallback : Statement .setCallback := by unfold Statement; decide
theorem busySet : Statement .busySet := by unfold Statement; decide
theorem busyClear : Statement .busyClear := by unfold Statement; decide
theorem srcEnable (c : Byte) : Statement (.srcEnable c) := by revert c; unfold Statement; decide
theorem srcDisable (c : Byte) : Statement (.srcDisable c) := by revert c; unfold Statement; decide
theorem srcAck (c : Byte) : Statement (.srcAck c) := by revert c; unfold Statement; decide
theorem cbReturn : Statement .cbReturn := by unfold Statement; decide

end Sys2Proof.Laws.EncodeLegal
end

