-- ==== Sys2Proof/Laws/Step.lean ====
section
/-! SUPPORT. What a step can do, said once: which agent stepped and what it did. -/

namespace Sys2Proof.Machine

/-! ### Frames of the step's own setters -/

@[simp] theorem State.popSched_params (s : State) : s.popSched.params = s.params := rfl
@[simp] theorem State.popSched_slots (s : State) : s.popSched.slots = s.slots := rfl
@[simp] theorem State.popSched_en (s : State) : s.popSched.en = s.en := rfl
@[simp] theorem State.popSched_pend (s : State) : s.popSched.pend = s.pend := rfl
@[simp] theorem State.popSched_installed (s : State) : s.popSched.installed = s.installed := rfl
@[simp] theorem State.popSched_phase (s : State) : s.popSched.phase = s.phase := rfl
@[simp] theorem State.popSched_curFn (s : State) : s.popSched.curFn = s.curFn := rfl
@[simp] theorem State.popSched_curCtx (s : State) : s.popSched.curCtx = s.curCtx := rfl
@[simp] theorem State.popSched_curHandle (s : State) : s.popSched.curHandle = s.curHandle := rfl
@[simp] theorem State.popSched_banks (s : State) : s.popSched.banks = s.banks := rfl
@[simp] theorem State.popSched_faults (s : State) : s.popSched.faults = s.faults := rfl
@[simp] theorem State.popSched_store (s : State) : s.popSched.store = s.store := rfl
@[simp] theorem State.popSched_armed (s : State) : s.popSched.armed = s.armed := rfl
@[simp] theorem State.popSched_flows (s : State) : s.popSched.flows = s.flows := rfl
@[simp] theorem State.popSched_sched (s : State) : s.popSched.sched = s.sched.tail := rfl
@[simp] theorem State.popSched_draws (s : State) : s.popSched.draws = s.draws := rfl

@[simp] theorem State.popAction_params (s : State) (ctx : Context) : (s.popAction ctx).params = s.params := rfl
@[simp] theorem State.popAction_slots (s : State) (ctx : Context) : (s.popAction ctx).slots = s.slots := rfl
@[simp] theorem State.popAction_en (s : State) (ctx : Context) : (s.popAction ctx).en = s.en := rfl
@[simp] theorem State.popAction_pend (s : State) (ctx : Context) : (s.popAction ctx).pend = s.pend := rfl
@[simp] theorem State.popAction_installed (s : State) (ctx : Context) : (s.popAction ctx).installed = s.installed := rfl
@[simp] theorem State.popAction_phase (s : State) (ctx : Context) : (s.popAction ctx).phase = s.phase := rfl
@[simp] theorem State.popAction_curFn (s : State) (ctx : Context) : (s.popAction ctx).curFn = s.curFn := rfl
@[simp] theorem State.popAction_curCtx (s : State) (ctx : Context) : (s.popAction ctx).curCtx = s.curCtx := rfl
@[simp] theorem State.popAction_curHandle (s : State) (ctx : Context) : (s.popAction ctx).curHandle = s.curHandle := rfl
@[simp] theorem State.popAction_banks (s : State) (ctx : Context) : (s.popAction ctx).banks = s.banks := rfl
@[simp] theorem State.popAction_faults (s : State) (ctx : Context) : (s.popAction ctx).faults = s.faults := rfl
@[simp] theorem State.popAction_store (s : State) (ctx : Context) : (s.popAction ctx).store = s.store := rfl
@[simp] theorem State.popAction_armed (s : State) (ctx : Context) : (s.popAction ctx).armed = s.armed := rfl
@[simp] theorem State.popAction_flows (s : State) (ctx : Context) : (s.popAction ctx).flows = s.flows.set ctx { s.flows.get ctx with todo := (s.flows.get ctx).todo.tail } := rfl
@[simp] theorem State.popAction_sched (s : State) (ctx : Context) : (s.popAction ctx).sched = s.sched := rfl
@[simp] theorem State.popAction_draws (s : State) (ctx : Context) : (s.popAction ctx).draws = s.draws := rfl

@[simp] theorem State.returnData_params (s : State) (ctx : Context) (v : Word) : (s.returnData ctx v).params = s.params := rfl
@[simp] theorem State.returnData_slots (s : State) (ctx : Context) (v : Word) : (s.returnData ctx v).slots = s.slots := rfl
@[simp] theorem State.returnData_en (s : State) (ctx : Context) (v : Word) : (s.returnData ctx v).en = s.en := rfl
@[simp] theorem State.returnData_pend (s : State) (ctx : Context) (v : Word) : (s.returnData ctx v).pend = s.pend := rfl
@[simp] theorem State.returnData_installed (s : State) (ctx : Context) (v : Word) : (s.returnData ctx v).installed = s.installed := rfl
@[simp] theorem State.returnData_phase (s : State) (ctx : Context) (v : Word) : (s.returnData ctx v).phase = s.phase := rfl
@[simp] theorem State.returnData_curFn (s : State) (ctx : Context) (v : Word) : (s.returnData ctx v).curFn = s.curFn := rfl
@[simp] theorem State.returnData_curCtx (s : State) (ctx : Context) (v : Word) : (s.returnData ctx v).curCtx = s.curCtx := rfl
@[simp] theorem State.returnData_curHandle (s : State) (ctx : Context) (v : Word) : (s.returnData ctx v).curHandle = s.curHandle := rfl
@[simp] theorem State.returnData_banks (s : State) (ctx : Context) (v : Word) : (s.returnData ctx v).banks = s.banks := rfl
@[simp] theorem State.returnData_faults (s : State) (ctx : Context) (v : Word) : (s.returnData ctx v).faults = s.faults := rfl
@[simp] theorem State.returnData_store (s : State) (ctx : Context) (v : Word) : (s.returnData ctx v).store = s.store := rfl
@[simp] theorem State.returnData_armed (s : State) (ctx : Context) (v : Word) : (s.returnData ctx v).armed = s.armed := rfl
@[simp] theorem State.returnData_flows (s : State) (ctx : Context) (v : Word) : (s.returnData ctx v).flows = s.flows.set ctx { s.flows.get ctx with readData := v } := rfl
@[simp] theorem State.returnData_sched (s : State) (ctx : Context) (v : Word) : (s.returnData ctx v).sched = s.sched := rfl
@[simp] theorem State.returnData_draws (s : State) (ctx : Context) (v : Word) : (s.returnData ctx v).draws = s.draws := rfl

@[simp] theorem State.serve_params (s : State) (j : Fin 8) : (s.serve j).params = s.params := rfl
@[simp] theorem State.serve_slots (s : State) (j : Fin 8) : (s.serve j).slots = s.slots := rfl
@[simp] theorem State.serve_en (s : State) (j : Fin 8) : (s.serve j).en = s.en := rfl
@[simp] theorem State.serve_pend (s : State) (j : Fin 8) : (s.serve j).pend = writeBit s.pend (s.slot j).chan.toNat false := rfl
@[simp] theorem State.serve_installed (s : State) (j : Fin 8) : (s.serve j).installed = s.installed := rfl
@[simp] theorem State.serve_phase (s : State) (j : Fin 8) : (s.serve j).phase = s.phase := rfl
@[simp] theorem State.serve_curFn (s : State) (j : Fin 8) : (s.serve j).curFn = s.curFn := rfl
@[simp] theorem State.serve_curCtx (s : State) (j : Fin 8) : (s.serve j).curCtx = s.curCtx := rfl
@[simp] theorem State.serve_curHandle (s : State) (j : Fin 8) : (s.serve j).curHandle = s.curHandle := rfl
@[simp] theorem State.serve_banks (s : State) (j : Fin 8) : (s.serve j).banks = s.banks := rfl
@[simp] theorem State.serve_faults (s : State) (j : Fin 8) : (s.serve j).faults = s.faults := rfl
@[simp] theorem State.serve_store (s : State) (j : Fin 8) : (s.serve j).store = Store.modify s.store (s.slot j).handle fun r => { r with busy := false } := rfl
@[simp] theorem State.serve_armed (s : State) (j : Fin 8) : (s.serve j).armed = s.armed := rfl
@[simp] theorem State.serve_flows (s : State) (j : Fin 8) : (s.serve j).flows = s.flows := rfl
@[simp] theorem State.serve_sched (s : State) (j : Fin 8) : (s.serve j).sched = s.sched := rfl
@[simp] theorem State.serve_draws (s : State) (j : Fin 8) : (s.serve j).draws = s.draws := rfl

/-! ### Taking the schedule's entry and the action off changes no view of the CDRA -/

@[simp] theorem State.popSched_slot (s : State) (j : Fin 8) : s.popSched.slot j = s.slot j := rfl
@[simp] theorem State.popSched_record? (s : State) (h : Word) : s.popSched.record? h = s.record? h := rfl
@[simp] theorem State.popSched_enabled (s : State) (c : Nat) : s.popSched.enabled c = s.enabled c := rfl
@[simp] theorem State.popSched_pending (s : State) (c : Nat) : s.popSched.pending c = s.pending c := rfl
@[simp] theorem State.popSched_isArmed (s : State) (c : Nat) : s.popSched.isArmed c = s.isArmed c := rfl
@[simp] theorem State.popSched_isChannel (s : State) (c : Nat) : s.popSched.isChannel c = s.isChannel c := rfl
@[simp] theorem State.popSched_isHit (s : State) (j : Fin 8) : s.popSched.isHit j = s.isHit j := rfl
@[simp] theorem State.popSched_line (s : State) : s.popSched.line = s.line := rfl
@[simp] theorem State.popSched_orphan? (s : State) : s.popSched.orphan? = s.orphan? := rfl

@[simp] theorem State.popAction_slot (s : State) (ctx : Context) (j : Fin 8) : (s.popAction ctx).slot j = s.slot j := rfl
@[simp] theorem State.popAction_record? (s : State) (ctx : Context) (h : Word) : (s.popAction ctx).record? h = s.record? h := rfl
@[simp] theorem State.popAction_enabled (s : State) (ctx : Context) (c : Nat) : (s.popAction ctx).enabled c = s.enabled c := rfl
@[simp] theorem State.popAction_pending (s : State) (ctx : Context) (c : Nat) : (s.popAction ctx).pending c = s.pending c := rfl
@[simp] theorem State.popAction_isArmed (s : State) (ctx : Context) (c : Nat) : (s.popAction ctx).isArmed c = s.isArmed c := rfl
@[simp] theorem State.popAction_isChannel (s : State) (ctx : Context) (c : Nat) : (s.popAction ctx).isChannel c = s.isChannel c := rfl
@[simp] theorem State.popAction_isHit (s : State) (ctx : Context) (j : Fin 8) : (s.popAction ctx).isHit j = s.isHit j := rfl
@[simp] theorem State.popAction_line (s : State) (ctx : Context) : (s.popAction ctx).line = s.line := rfl
@[simp] theorem State.popAction_orphan? (s : State) (ctx : Context) : (s.popAction ctx).orphan? = s.orphan? := rfl

/-! ### What a host flow reads, runs next and is answered -/

/-- The statements of an engine operation come before what the flow had to do. -/
@[simp] theorem State.runFirst_todo (s : State) (ctx : Context) (l : List HostAction) :
    ((s.runFirst ctx l).flows.get ctx).todo = l ++ (s.flows.get ctx).todo := by
  cases ctx <;> rfl

/-- An answer is kept until the next one. -/
@[simp] theorem State.answer_answer (s : State) (ctx : Context) (v : EngineReturn) :
    ((s.answer ctx v).flows.get ctx).answer = some v := by
  cases ctx <;> rfl

/-- A read of a live record returns the field and writes the flow alone (20_memory.md R63). -/
theorem hostReadRecord_live {s : State} {ctx : Context} {h : Word} {r : Record} (hr : s.record? h = some r)
    (f : RecordField) : hostReadRecord s ctx h f = s.returnData ctx (r.field f) := by
  simp [hostReadRecord, hr]

/-- The busy flag as a word is 1 or 0. -/
theorem Record.field_busy (r : Record) : r.field .busy = if r.busy then 1 else 0 := by
  simp only [Record.field]
  cases r.busy <;> decide

/-- The direction as a word: 0 TX, 1 RX (10_state.md R37). -/
theorem Record.field_dir (r : Record) : r.field .dir = if r.dir = .rx then 1 else 0 := by
  simp only [Record.field]
  cases r.dir <;> decide

/-- An engine operation on a live record runs its statements, on that record's channel (30_encoding.md R79). -/
theorem runOnChannel_live {s : State} {ctx : Context} {h : Word} {r : Record} (hr : s.record? h = some r)
    (body : Byte → List HostAction) : runOnChannel s ctx h body = s.runFirst ctx (body r.chan) := by
  simp [runOnChannel, hr]

/-! ### Host actions, agents, the Dispatcher -/

/-- CMD stands at offset 0 alone (10_state.md R21). -/
theorem windowReg_eq_cmd {off : Byte} : windowReg off = .cmd ↔ off = 0x00 := by
  revert off; decide

/-- A bus write that answers a next state: a command, an illegal word, an operand register, or nothing. -/
theorem busWrite_cases {s t : State} {ctx : Context} {off : Byte} {size : Nat} {v : Word}
    (h : busWrite s ctx off size v = .next t) :
    t = s.busFault off size ∨ t = s ∨
    (∃ i, off = 0x00 ∧ size = 4 ∧ decodeWord v = .ok i ∧ exec i s = .next t) ∨
    (off = 0x00 ∧ t = s.setResult ctx .illegal none 0) ∨
    (∃ b : Bank, b.result = (s.banks.get ctx).result ∧ t = s.withBank ctx b) := by
  unfold busWrite at h
  split at h
  · rename_i hp
    have hs : size = 4 := by simp [properAccess] at hp; exact hp.1
    generalize hr : windowReg off = reg at h
    cases reg <;> simp only [writeReg, writeCmd] at h
    case cmd =>
      split at h
      · rename_i i hi
        exact Or.inr (Or.inr (Or.inl ⟨i, windowReg_eq_cmd.mp hr, hs, hi, h⟩))
      · cases h
        exact Or.inr (Or.inr (Or.inr (Or.inl ⟨windowReg_eq_cmd.mp hr, rfl⟩)))
    case argHandle | argFn | argCtx =>
      cases h
      exact Or.inr (Or.inr (Or.inr (Or.inr ⟨_, by rfl, rfl⟩)))
    all_goals
      cases h
      exact Or.inr (Or.inl rfl)
  · cases h
    exact Or.inl rfl

/-- The next states of one host action. -/
inductive HostEffect (ctx : Context) (a : HostAction) (s : State) : State → Prop where
  /-- Only the flow itself changes: what it read, what it does next, what an engine operation returned. -/
  | flows (f : HostFlow) : HostEffect ctx a s (s.withFlow ctx f)
  /-- The host names a record that is not live. -/
  | dangles (h : Word) (hr : s.record? h = none) : HostEffect ctx a s (s.recordFault (.danglingHandle h))
  /-- The host reads a record that is not live: 0 is returned. -/
  | danglingRead (h : Word) (hr : s.record? h = none) :
      HostEffect ctx a s ((s.recordFault (.danglingHandle h)).returnData ctx 0)
  /-- An improper read: `F_BUS`, and 0 is returned. -/
  | badRead (off : Byte) (size : Nat) (ha : a = .read off size) (hp : properAccess off size = false) :
      HostEffect ctx a s ((s.busFault off size).returnData ctx 0)
  /-- An improper write: `F_BUS`. -/
  | badWrite (off : Byte) (size : Nat) : HostEffect ctx a s (s.busFault off size)
  /-- Nothing: a write to a register that takes none, a computation, an abort of an idle channel. -/
  | nothing : HostEffect ctx a s s
  /-- A legal word written to CMD. -/
  | commands (v : Word) (i : Instr) (t : State) (ha : a = .write 0x00 4 v) (hi : decodeWord v = .ok i)
      (he : exec i s = .next t) : HostEffect ctx a s t
  /-- An illegal word written to CMD. -/
  | illegal : HostEffect ctx a s (s.setResult ctx .illegal none 0)
  /-- An operand register of the own bank. -/
  | operand (b : Bank) (hb : b.result = (s.banks.get ctx).result) : HostEffect ctx a s (s.withBank ctx b)
  /-- `dma_arm` of a channel that is not armed. -/
  | arms (c : Nat) (ha : a = .dmaArm c) (hc : s.isChannel c = true) (hn : s.isArmed c = false) :
      HostEffect ctx a s (s.setArmed c true)
  /-- `dma_arm` of an armed channel. -/
  | rearms (c : Nat) (ha : a = .dmaArm c) (hc : s.isChannel c = true) (hn : s.isArmed c = true) :
      HostEffect ctx a s (s.recordFault (.dmaContract c))
  /-- `dma_abort` of an armed channel; `n` counts the draws. -/
  | aborts (c n : Nat) (ha : a = .dmaAbort c) (hc : s.isChannel c = true) :
      HostEffect ctx a s ((s.setArmed c false).withDraws n)
  /-- `dma_abort` of an armed channel that raises its completion. -/
  | abortsRaising (c n : Nat) (ha : a = .dmaAbort c) (hc : s.isChannel c = true) :
      HostEffect ctx a s (((s.setArmed c false).setPending c true).withDraws n)
  /-- The host creates a record. -/
  | creates (h : Word) (dir : Dir) (chan : Byte) (ha : a = .create h dir chan) (hz : h ≠ 0)
      (hr : s.record? h = none) :
      HostEffect ctx a s (s.withStore (Store.insert s.store h (newRecord dir chan)))
  /-- The host destroys a record. -/
  | destroys (h : Word) (r : Record) (ha : a = .destroy h) (hr : s.record? h = some r) :
      HostEffect ctx a s (s.withStore (Store.erase s.store h))

theorem State.useDraw_eq (s : State) : ∃ n, s.useDraw = s.withDraws n := by
  unfold State.useDraw
  cases s.params.abortCompletion
  · exact ⟨s.draws, rfl⟩
  · exact ⟨s.draws, rfl⟩
  · exact ⟨s.draws + 1, rfl⟩

/-- An engine operation that begins with `IS(h).chan` writes the flow, or the handle is dangling. -/
theorem runOnChannel_effect (ctx : Context) (a : HostAction) (s : State) (h : Word) (body : Byte → List HostAction) :
    HostEffect ctx a s (runOnChannel s ctx h body) := by
  unfold runOnChannel
  split
  · rename_i hr; exact .dangles h hr
  · exact .flows _

/-- Every next state of a host action is one of the listed effects. -/
theorem hostAction_effect {ctx : Context} {a : HostAction} {s t : State} (h : hostAction ctx a s = .next t) :
    HostEffect ctx a s t := by
  cases a with
  | read off size =>
    cases h
    unfold busRead
    cases hp : properAccess off size with
    | true => exact .flows _
    | false => exact .badRead off size rfl hp
  | write off size v =>
    obtain rfl | rfl | ⟨i, rfl, rfl, hi, he⟩ | ⟨-, rfl⟩ | ⟨b, hb, rfl⟩ := busWrite_cases h
    · exact .badWrite _ _
    · exact .nothing
    · exact .commands v i t rfl hi he
    · exact .illegal
    · exact .operand b hb
  | dmaArm c =>
    simp only [hostAction] at h
    split at h
    · rename_i hc
      cases h
      unfold dmaArm
      cases ha : s.isArmed c with
      | true => exact .rearms c rfl hc ha
      | false => exact .arms c rfl hc ha
    · cases h
  | dmaAbort c =>
    simp only [hostAction] at h
    split at h
    · rename_i hc
      cases h
      unfold dmaAbort
      split
      · split
        · obtain ⟨n, e⟩ := ((s.setArmed c false).setPending c true).useDraw_eq
          exact e ▸ .abortsRaising c n rfl hc
        · obtain ⟨n, e⟩ := (s.setArmed c false).useDraw_eq
          exact e ▸ .aborts c n rfl hc
      · exact .nothing
    · cases h
  | create k dir chan =>
    simp only [hostAction, createRecord] at h
    split at h
    · cases h
    · rename_i hz
      split at h
      · cases h
      · rename_i hr
        cases h
        exact .creates k dir chan rfl hz hr
  | destroy k =>
    simp only [hostAction, destroyRecord] at h
    split at h
    · rename_i r hr
      cases h
      exact .destroys k r rfl hr
    · cases h
  | readRecord k f =>
    cases h
    unfold hostReadRecord
    split
    · rename_i hr; exact .danglingRead k hr
    · exact .flows _
  | releaseChannel c => cases h; exact .nothing
  | engineInit k => cases h; exact runOnChannel_effect ..
  | initDecides c => cases h; exact .flows _
  | engineStart k len => cases h; exact .flows _
  | startDecides k =>
    cases h
    unfold startDecision
    split
    · exact runOnChannel_effect ..
    · exact .flows _
  | engineAbort k => cases h; exact runOnChannel_effect ..
  | engineDeinit k => cases h; exact runOnChannel_effect ..
  | giveAnswer v => cases h; exact .flows _
  | compute => cases h; exact .nothing

/-- The next states of the Dispatcher's step. -/
inductive DispatchEffect (s : State) : State → Prop where
  /-- Idle with the line low, or a callback running. -/
  | waits : DispatchEffect s s
  | enters (hp : s.phase = .idle) (hl : s.line = true) : DispatchEffect s s.enterDispatch
  | misses (k : Fin 8) (hp : s.phase = .scan k.castSucc) (hh : s.isHit k = false) :
      DispatchEffect s (s.withPhase (.scan k.succ))
  | dangles (k : Fin 8) (hp : s.phase = .scan k.castSucc) (hh : s.isHit k = true)
      (hr : s.record? (s.slot k).handle = none) :
      DispatchEffect s ((s.recordFault (.danglingHandle (s.slot k).handle)).withPhase (.scan k.succ))
  | serves (k : Fin 8) (r : Record) (hp : s.phase = .scan k.castSucc) (hh : s.isHit k = true)
      (hr : s.record? (s.slot k).handle = some r) (hcb : r.cb = 0) :
      DispatchEffect s ((s.serve k).withPhase (.scan k.succ))
  | calls (k : Fin 8) (r : Record) (hp : s.phase = .scan k.castSucc) (hh : s.isHit k = true)
      (hr : s.record? (s.slot k).handle = some r) (hcb : r.cb ≠ 0) :
      DispatchEffect s ((s.serve k).enterCallback k r.cb r.ctx (s.slot k).handle)
  | exits (hp : s.phase = .scan (Fin.last 8)) (hn : s.orphan? = none ∨ s.installed = false) :
      DispatchEffect s (s.withPhase .idle)
  | exitsOrphan (c : Nat) (hp : s.phase = .scan (Fin.last 8)) (hc : s.orphan? = some c) (hi : s.installed = true) :
      DispatchEffect s ((s.recordFault (.orphanSource c)).withPhase .idle)

@[simp] theorem scanSlot_eq (k : Fin 8) : scanSlot k = k := scanOrder_getElem k

/-- The scan step at index `k`, case by case (60_exceptions.md R165). -/
theorem scanStep_effect (s : State) (k : Fin 8) (hp : s.phase = .scan k.castSucc) :
    DispatchEffect s (scanStep k s) := by
  unfold scanStep
  rw [scanSlot_eq]
  cases hh : s.isHit k with
  | false => exact .misses k hp hh
  | true =>
    cases hr : s.record? (s.slot k).handle with
    | none => exact .dangles k hp hh hr
    | some r =>
      by_cases hcb : r.cb = 0
      · simp only [ne_eq, hcb, not_true_eq_false, if_false]
        exact .serves k r hp hh hr hcb
      · simp only [ne_eq, hcb, not_false_eq_true, if_true]
        exact .calls k r hp hh hr hcb

/-- Every Dispatcher step is one of the listed effects. -/
theorem dispatcherStep_effect (s : State) : DispatchEffect s (dispatcherStep s) := by
  unfold dispatcherStep
  split
  · rename_i hp
    split
    · rename_i hl; exact .enters hp hl
    · exact .waits
  · rename_i i hp
    split
    · rename_i hi
      exact scanStep_effect s ⟨i.val, hi⟩ (hp.trans (congrArg Phase.scan (Fin.ext rfl)))
    · rename_i hi
      have hp' : s.phase = .scan (Fin.last 8) := hp.trans (congrArg Phase.scan (Fin.ext (by simp; omega)))
      unfold State.exitDispatch
      cases ho : s.orphan? with
      | none => exact .exits hp' (Or.inl ho)
      | some c =>
        cases hi : s.installed with
        | false => exact .exits hp' (Or.inr hi)
        | true => exact .exitsOrphan c hp' ho hi
  · exact .waits

/-- The next states of a step, by the agent that took it; `s` is the state with its schedule's first entry taken off. -/
inductive AgentEffect (a : Agent) (s : State) : State → Prop where
  /-- The agent's step is not enabled, or the flow has nothing to do. -/
  | waits : AgentEffect a s s
  | acts (ctx : Context) (act : HostAction) (rest : List HostAction) (t : State) (ha : a = .host ctx)
      (hc : s.phase.context? = some ctx) (ht : (s.flows.get ctx).todo = act :: rest)
      (he : HostEffect ctx act (s.popAction ctx) t) : AgentEffect a s t
  | dispatches (t : State) (ha : a = .dispatcher) (he : DispatchEffect s t) : AgentEffect a s t
  | completes (c : Nat) (ha : a = .dma c) (hc : s.isChannel c = true) (hr : s.isArmed c = true) :
      AgentEffect a s ((s.setArmed c false).setPending c true)
  | resets (ha : a = .platform) : AgentEffect a s (platformReset s)

theorem agentStep_effect {a : Agent} {s t : State} (h : agentStep a s = .next t) : AgentEffect a s t := by
  cases a with
  | host ctx =>
    simp only [agentStep, hostStep] at h
    split at h
    · rename_i hc
      split at h
      · cases h; exact .waits
      · rename_i act rest ht
        exact .acts ctx act rest t rfl hc ht (hostAction_effect h)
    · cases h; exact .waits
  | dispatcher => cases h; exact .dispatches _ rfl (dispatcherStep_effect s)
  | dma c =>
    cases h
    unfold dmaComplete
    cases hc : s.isChannel c with
    | false => exact .waits
    | true =>
      cases hr : s.isArmed c with
      | false => exact .waits
      | true => exact .completes c rfl hc hr
  | platform => cases h; exact .resets rfl

/-- Every next state of `step` is one of the listed effects of the next agent. -/
theorem step_effect {s t : State} (h : step s = .next t) : AgentEffect s.nextAgent s.popSched t :=
  agentStep_effect h

/-! ### Which agent's step it is -/

/-- A step of a host flow that the phase lets run is its next action, at the state with the schedule's entry and the
action taken off. -/
theorem step_host {s : State} {ctx : Context} {a : HostAction} (h : s.nextAgent = .host ctx)
    (hc : s.phase.context? = some ctx) (ha : (s.flows.get ctx).todo.head? = some a) :
    step s = hostAction ctx a (s.popSched.popAction ctx) := by
  show agentStep s.nextAgent s.popSched = _
  rw [h]
  simp only [agentStep, hostStep, State.popSched_phase, hc, if_true, State.popSched_flows]
  cases ht : (s.flows.get ctx).todo with
  | nil => rw [ht] at ha; cases ha
  | cons b l => rw [ht] at ha; cases ha; rfl

/-- A step of the Dispatcher. -/
theorem step_dispatcher {s : State} (h : s.nextAgent = .dispatcher) :
    step s = .next (dispatcherStep s.popSched) := by
  show agentStep s.nextAgent s.popSched = _
  rw [h]
  rfl

/-- A step of a DMA channel. -/
theorem step_dma {s : State} {c : Nat} (h : s.nextAgent = .dma c) : step s = .next (dmaComplete c s.popSched) := by
  show agentStep s.nextAgent s.popSched = _
  rw [h]
  rfl

/-- A system reset. -/
theorem step_platform {s : State} (h : s.nextAgent = .platform) : step s = .next (platformReset s.popSched) := by
  show agentStep s.nextAgent s.popSched = _
  rw [h]
  rfl

end Sys2Proof.Machine
end

