-- ==== Sys2Proof/Tests/Slice0.lean ====
section
/-! SUPPORT. The model's own tests: the well-formedness checks, words written out bit by bit, one step per test with the
values 95_test_vectors.md derives, and a witness for every statement that has hypotheses. -/

namespace Sys2Proof.Tests

open Sys2Proof.Machine Sys2Proof.Claims

/-! ### Well-formedness -/

/-- RSV = 1 is refused (V-E3). -/
theorem test_wf_refuses_reserved_bits : legalWord 0x00010000 = false := by decide
/-- OP = 0x0C is refused (V-E1), and 0x0B, the last opcode, is not. -/
theorem test_wf_refuses_reserved_opcode : legalWord 0x0000000C = false ∧ legalWord 0x0000000B = true := by decide
/-- `N_DMA_CH` is 1 to 32 (00_scope.md R8). -/
theorem test_wf_refuses_channel_counts :
    ({ Params.default with nDmaCh := 0 }).wellFormed = false ∧ ({ Params.default with nDmaCh := 1 }).wellFormed = true ∧
    ({ Params.default with nDmaCh := 32 }).wellFormed = true ∧ ({ Params.default with nDmaCh := 33 }).wellFormed = false := by
  decide

/-! ### Decoding: words written out from the fields RSV, CHAN, OP (30_encoding.md R70, R73) -/

theorem test_decode_nop : decodeWord 0b0000000000000000_00000000_00000000#32 = .ok .nop := by decide
theorem test_decode_install : decodeWord 0b0000000000000000_00000000_00000001#32 = .ok .install := by decide
/-- CHAN = 0x12 is ignored (V-E7). -/
theorem test_decode_register : decodeWord 0b0000000000000000_00010010_00000010#32 = .ok .register := by decide
theorem test_decode_unregister : decodeWord 0b0000000000000000_00000000_00000011#32 = .ok .unregister := by decide
theorem test_decode_query : decodeWord 0b0000000000000000_00000000_00000100#32 = .ok .query := by decide
theorem test_decode_set_callback : decodeWord 0b0000000000000000_00000000_00000101#32 = .ok .setCallback := by decide
theorem test_decode_busy_set : decodeWord 0b0000000000000000_00000000_00000110#32 = .ok .busySet := by decide
theorem test_decode_busy_clear : decodeWord 0b0000000000000000_00000000_00000111#32 = .ok .busyClear := by decide
theorem test_decode_src_enable : decodeWord 0b0000000000000000_00001111_00001000#32 = .ok (.srcEnable 15) := by decide
theorem test_decode_src_disable : decodeWord 0b0000000000000000_11111111_00001001#32 = .ok (.srcDisable 0xFF) := by decide
theorem test_decode_src_ack : decodeWord 0b0000000000000000_00010000_00001010#32 = .ok (.srcAck 16) := by decide
theorem test_decode_cb_return : decodeWord 0b0000000000000000_00000000_00001011#32 = .ok .cbReturn := by decide

/-- The reserved opcodes begin at 0x0C, and RSV is looked at before OP (V-E1 to V-E5). -/
theorem test_decode_illegal :
    decodeWord 0x0000000C = .error .reservedOpcode ∧ decodeWord 0x000000FF = .error .reservedOpcode ∧
    decodeWord 0x00010000 = .error .reservedBits ∧ decodeWord 0xFFFFFFFF = .error .reservedBits ∧
    decodeWord 0x0001000B = .error .reservedBits := by decide

/-- The lowest-addressed byte is OP (20_memory.md R51); three bytes are no word. -/
theorem test_decode_bytes :
    decodeBytes [0x08, 0x0F, 0x00, 0x00, 0xAA] = .ok (.srcEnable 15, [0xAA]) ∧
    decodeBytes [0x08, 0x0F, 0x00] = .error .truncated := by decide

/-- The bus words of program P1 (30_encoding.md R78, R79). -/
theorem test_assembler_words :
    asmPlain (.srcAck 1) = [.write 0x00 4 0x0000010A] ∧
    engineInitHead 0 0x20001000 =
      [.write 0x04 4 0x20001000, .write 0x00 4 0x00000002, .read 0x10 4, .initDecides 0] ∧
    engineInitTail 4 0x00000400 = [.write 0x00 4 0x0000040A, .write 0x00 4 0x00000001, .write 0x00 4 0x00000408,
      .giveAnswer (.status 0)] ∧
    asmSetCallback 0x20001000 0x10000201 0x2000F000 =
      [.write 0x04 4 0x20001000, .write 0x08 4 0x10000201, .write 0x0C 4 0x2000F000, .write 0x00 4 0x00000005] := by
  decide

/-- The early returns of R79: no channel, a refused REGISTER (E_CAPACITY, the channel released), `engine_start h, 0`
(V-I9: no access issued). -/
theorem test_engine_early_returns :
    engineInitHead 0xFF 0x20001000 = [.giveAnswer .resourceExhausted] ∧
    engineInitTail 4 0x0000FF01 = [.releaseChannel 4, .giveAnswer (.status 0x01)] ∧
    engineStartHead 0x20001000 0 = [.giveAnswer .noValue] := by decide

/-! ### States the tests and the witnesses start from (95_test_vectors.md, conventions) -/

def recA : Record := { dir := .tx, chan := 0, busy := false, cb := 0, ctx := 0 }
def recB : Record := { dir := .tx, chan := 1, busy := false, cb := 0, ctx := 0 }
def recR : Record := { dir := .rx, chan := 4, busy := false, cb := 0, ctx := 0 }

/-- Reset, with the records A, B, R. -/
def world : State := { State.reset with store := [(0x20001000, recA), (0x20001040, recB), (0x20002000, recR)] }

/-- ARG_HANDLE of both banks holds `h`. -/
def onHandle (h : Word) (s : State) : State :=
  { s with banks := { main := { s.banks.main with argHandle := h }, irq := { s.banks.irq with argHandle := h } } }

def slotA : Slot := { valid := true, handle := 0x20001000, chan := 0 }
def slotB : Slot := { valid := true, handle := 0x20001040, chan := 1 }
def slotR : Slot := { valid := true, handle := 0x20002000, chan := 4 }

/-- Slots 0, 1, 4 hold A, B, R (V-R3); sources disabled. -/
def registered : State :=
  { world with slots := #v[slotA, slotB, Slot.empty, Slot.empty, slotR, Slot.empty, Slot.empty, Slot.empty] }

/-- Four TX slots filled with channels 2, 3, 5, 6. -/
def fullTx : State :=
  { world with slots := #v[{ slotA with handle := 1, chan := 2 }, { slotA with handle := 2, chan := 3 },
      { slotA with handle := 3, chan := 5 }, { slotA with handle := 4, chan := 6 },
      Slot.empty, Slot.empty, Slot.empty, Slot.empty] }

/-- The start of V-D1: engines initialised, A and R with callbacks. -/
def engines : State :=
  { registered with
    en := 0x13, installed := true
    store := [(0x20001000, { recA with cb := 0x10000201, ctx := 0x2000F000 }), (0x20001040, recB),
      (0x20002000, { recR with cb := 0x10000301, ctx := 0x2000F100 })] }

/-- The callback of slot 0 runs. -/
def inCallbackA : State :=
  { engines with phase := .inCallback 0, curFn := 0x10000201, curCtx := 0x2000F000, curHandle := 0x20001000 }

/-- The callback of slot 4 runs. -/
def inCallbackR : State :=
  { engines with phase := .inCallback 4, curFn := 0x10000301, curCtx := 0x2000F100, curHandle := 0x20002000 }

/-- Flow `ctx` does `a` next. -/
def doing (ctx : Context) (a : HostAction) (s : State) : State :=
  (s.withFlow ctx { todo := [a], readData := 0x5A5A5A5A, answer := none }).withSched [.host ctx]

/-- The Dispatcher is next. -/
def dispatching (s : State) : State := s.withSched [.dispatcher]

/-- The next state, if there is one. -/
def nextOf (o : Host.Outcome State Fault Refusal) : Option State :=
  match o with
  | .next t => some t
  | .fault _ => none
  | .refused _ => none

/-- RESULT of a context after `o`. -/
def resultAfter (ctx : Context) (o : Host.Outcome State Fault Refusal) : Option Word :=
  (nextOf o).map fun t => (t.banks.get ctx).result

/-- What a step shows of the state it leads to. -/
def seen {α : Type} (o : Host.Outcome State Fault Refusal) (f : State → α) : Option α := (nextOf o).map f

/-! ### Commands, one step each -/

/-- V-E8: NOP writes RESULT. -/
theorem test_nop : resultAfter .main (exec .nop (world.setResult .main .busy none 0)) = some 0x0000FF00 := by decide

/-- V-S1. -/
theorem test_install : seen (exec .install world) (fun t => (t.statusWord, t.banks.main.result)) =
    some (0x00000001, 0x0000FF00) := by decide

/-- V-R1. -/
theorem test_register : seen (exec .register (onHandle 0x20001000 world))
    (fun t => (t.slotInfoWord 0, (t.slot 0).handle, t.statusWord, t.banks.main.result)) =
    some (0x00000001, 0x20001000, 0x00000100, 0x00000000) := by decide

/-- V-R6: the channel check spans both tables. -/
theorem test_register_duplicate_channel : seen
    (exec .register (onHandle 0x20002040
      { registered with store := world.store ++ [(0x20002040, { recR with chan := 0 })] }))
    (fun t => (t.banks.main.result, t.slots == registered.slots)) = some (0x00000003, true) := by decide

/-- V-R14. -/
theorem test_unregister : seen (exec .unregister (onHandle 0x20001000 registered))
    (fun t => (t.slotInfoWord 0, t.banks.main.result)) = some (0x0000FF00, 0x00000000) := by decide

/-- V-R18. -/
theorem test_unregister_enabled : seen (exec .unregister (onHandle 0x20002000 { registered with en := 0x10 }))
    (fun t => (t.slot 4, t.banks.main.result)) = some (slotR, 0x00000404) := by decide

/-- V-R22. -/
theorem test_query : resultAfter .main (exec .query (onHandle 0x20002000
    { registered with store := [(0x20002000, { recR with cb := 0x10000301, busy := true })] })) =
    some 0x00070400 := by decide

/-- V-R24. -/
theorem test_query_dangling : seen (exec .query (onHandle 0x20009000 world))
    (fun t => (t.banks.main.result, t.faults)) = some (0x0000FF00, [.danglingHandle 0x20009000]) := by decide

/-- V-I2. -/
theorem test_set_callback : seen
    (exec .setCallback { world with banks := { world.banks with
      main := { argHandle := 0x20001000, argFn := 0x10000201, argCtx := 0x2000F000, result := 0 } } })
    (fun t => (t.record? 0x20001000, t.banks.main.result)) =
    some (some { recA with cb := 0x10000201, ctx := 0x2000F000 }, 0x0000FF00) := by decide

/-- V-I6. -/
theorem test_busy_set : seen (exec .busySet (onHandle 0x20001000 world))
    (fun t => (t.record? 0x20001000, t.banks.main.result)) =
    some (some { recA with busy := true }, 0x0000FF00) := by decide

/-- V-I7. -/
theorem test_busy_set_busy : resultAfter .main
    (exec .busySet (onHandle 0x20001000 { world with store := [(0x20001000, { recA with busy := true })] })) =
    some 0x0000FF05 := by decide

/-- V-I8. -/
theorem test_busy_clear : seen
    (exec .busyClear (onHandle 0x20001000 { world with store := [(0x20001000, { recA with busy := true })] }))
    (fun t => (t.record? 0x20001000, t.banks.main.result)) = some (some recA, 0x0000FF00) := by decide

/-- V-E9. -/
theorem test_src_enable : seen (exec (.srcEnable 15) world) (fun t => (t.srcEnWord, t.banks.main.result)) =
    some (0x00008000, 0x0000FF00) := by decide

/-- V-S11: a stale completion raises the line at once. -/
theorem test_src_enable_raises_line : seen (exec (.srcEnable 4) { registered with installed := true, pend := 0x10 })
    (fun t => t.line) = some true := by decide

/-- V-S6. -/
theorem test_src_disable : seen (exec (.srcDisable 4) { world with en := 0x10, pend := 0x10 })
    (fun t => (t.srcEnWord, t.srcPendWord)) = some (0, 0x00000010) := by decide

/-- V-S7. -/
theorem test_src_ack : seen (exec (.srcAck 4) { world with pend := 0x10 })
    (fun t => (t.srcPendWord, t.banks.main.result)) = some (0, 0x0000FF00) := by decide

/-- V-E10, V-S10, V-S9: channel 16 names no source, nor does 0xFF. -/
theorem test_src_invalid :
    resultAfter .main (exec (.srcEnable 16) world) = some 0x0000FF02 ∧
    resultAfter .main (exec (.srcAck 16) world) = some 0x0000FF02 ∧
    resultAfter .main (exec (.srcDisable 0xFF) world) = some 0x0000FF02 := by decide

/-- V-C1. -/
theorem test_cb_return : seen (exec .cbReturn inCallbackR)
    (fun t => (t.phase, t.curFn, t.curCtx, t.curHandle, t.banks.irq.result)) =
    some (.scan 5, 0, 0, 0, 0x00000400) := by decide

/-- V-C2, V-C3. -/
theorem test_cb_return_edges :
    seen (exec .cbReturn { inCallbackR with phase := .inCallback 7 }) (fun t => (t.phase, t.banks.irq.result)) =
      some (.scan 8, 0x00000700) ∧
    seen (exec .cbReturn world) (fun t => (t.phase, t.banks.main.result)) = some (.idle, 0x0000FF07) := by decide

/-- V-R13, V-D12: REGISTER and UNREGISTER from a callback; the main bank is untouched. -/
theorem test_context_refused :
    seen (exec .register (onHandle 0x20001040 inCallbackA)) (fun t => (t.banks.irq.result, t.banks.main.result)) =
      some (0x0000FF07, 0x0000FF00) ∧
    seen (exec .unregister (onHandle 0x20001000 inCallbackA)) (fun t => (t.banks.irq.result, t.slot 0)) =
      some (0x0000FF07, slotA) := by decide

/-! ### The Dispatcher -/

/-- V-D1: with nothing pending there is no entry. -/
theorem test_no_entry : engines.line = false ∧ engines.statusWord = 0x00001201 ∧
    seen (step (dispatching engines)) (fun t => t.phase) = some .idle := by decide

/-- V-D3: the hit acknowledges, clears busy and latches the callback. -/
theorem test_scan_hit : seen (step (dispatching { engines with pend := 0x1, phase := .scan 0 }))
    (fun t => (t.pend, t.phase, t.curFn, t.curCtx, t.curHandle, t.statusWord)) =
    some (0, .inCallback 0, 0x10000201, 0x2000F000, 0x20001000, 0x0000120D) := by decide

/-- V-D2: a hit without a callback goes on. -/
theorem test_scan_hit_no_callback : seen
    (step (dispatching
      { engines with pend := 0x2, phase := .scan 1, store := [(0x20001040, { recB with busy := true })] }))
    (fun t => (t.pend, t.phase, t.record? 0x20001040)) = some (0, .scan 2, some recB) := by decide

/-- V-D9: the record was destroyed. -/
theorem test_scan_dangling : seen (step (dispatching { engines with pend := 0x1, phase := .scan 0, store := [] }))
    (fun t => (t.pend, t.phase, t.faults)) = some (1, .scan 1, [.danglingHandle 0x20001000]) := by decide

/-- R174 where the rules agree: a completion during an earlier slot's callback waits for its own scan step in this dispatch
(V-D7); one during a later slot's callback (V-D8), or during the slot's own, is not touched by the scan that goes on. -/
theorem test_late_completions :
    (let t := dmaComplete 4 { inCallbackA with armed := 0x10 };
      t.phase = .inCallback 0 ∧ (scanStep 4 { t with phase := .scan 4 }).phase = .inCallback 4) ∧
    (let t := dmaComplete 0 { inCallbackR with armed := 1 };
      seen (exec .cbReturn t) (fun u => (u.phase, (scanStep 5 u).phase, (scanStep 5 u).pend)) =
        some (.scan 5, .scan 6, 1)) ∧
    (let t := dmaComplete 0 { inCallbackA with armed := 1 };
      seen (exec .cbReturn t) (fun u => (u.phase, (scanStep 1 u).phase, (scanStep 1 u).pend)) =
        some (.scan 1, .scan 2, 1)) := by decide

/-- Log entry 20: R's completion before the step that examines slot 3, which R174 puts in this dispatch, and after it, in
phase `Scan(4)`, which R174 puts in the next, lead to one and the same state, which slot 4's scan step serves (R165). -/
theorem test_arrival_phase_is_no_state :
    let s := { engines with phase := .scan 3, armed := 0x10 };
    scanStep 3 (dmaComplete 4 s) = dmaComplete 4 (scanStep 3 s) ∧ (dmaComplete 4 (scanStep 3 s)).phase = .scan 4 ∧
      (scanStep 4 (dmaComplete 4 (scanStep 3 s))).phase = .inCallback 4 := by decide

/-- V-D10: an orphan source. -/
theorem test_exit_orphan : seen
    (step (dispatching { State.reset with installed := true, en := 0x200, pend := 0x200, phase := .scan 8 }))
    (fun t => (t.phase, t.faults, t.line)) = some (.idle, [.orphanSource 9], true) := by decide

/-! ### DMA, the window, reset -/

/-- V-M2, V-M4. -/
theorem test_dma :
    seen (step (doing .main (.dmaArm 0) { world with armed := 1 })) (fun t => (t.armed, t.faults)) =
      some (1, [.dmaContract 0]) ∧
    seen (step ({ world with armed := 8 }.withSched [.dma 3])) (fun t => (t.armed, t.pend)) = some (0, 8) := by decide

/-- V-M6, V-M7. -/
theorem test_dma_abort :
    seen (step (doing .main (.dmaAbort 2)
      { world with armed := 4, params := { Params.default with abortCompletion := .never } }))
      (fun t => (t.armed, t.pend)) = some (0, 0) ∧
    seen (step (doing .main (.dmaAbort 2)
      { world with armed := 4, params := { Params.default with abortCompletion := .always } }))
      (fun t => (t.armed, t.pend)) = some (0, 4) := by decide

/-- V-B5, V-B6, V-B7. -/
theorem test_bus_faults :
    seen (step (doing .main (.read 0x14 2) engines)) (fun t => (t.flows.main.readData, t.faults)) =
      some (0, [.bus 0x14 2]) ∧
    seen (step (doing .main (.write 0x02 4 1) world)) (fun t => (t.installed, t.faults)) =
      some (false, [.bus 0x02 4]) ∧
    seen (step (doing .main (.write 0x00 1 1) world)) (fun t => (t.installed, t.faults)) =
      some (false, [.bus 0x00 1]) := by decide

/-- V-B8, V-B9, V-B10. -/
theorem test_bus_reads :
    seen (step (doing .irq (.read 0x04 4)
      { inCallbackA with banks := { inCallbackA.banks with main := { Bank.reset with argHandle := 0x20001000 } } }))
      (fun t => t.flows.irq.readData) = some 0 ∧
    seen (step (doing .main (.read 0x1C 4) { world with pend := 8 })) (fun t => (t.flows.main.readData, t.pend)) =
      some (8, 8) ∧
    seen (step (doing .main (.write 0x10 4 0x12345678) world)) (fun t => t.banks) = some world.banks := by decide

/-- R63: the busy flag a hit cleared reads 0 at the main flow's and the callback's next read of its record; before, 1. -/
theorem test_busy_poll :
    let busyA := { engines with store := [(0x20001000, { recA with cb := 1, busy := true })] };
    seen (step (doing .main (.readRecord 0x20001000 .busy) busyA)) (fun t => t.flows.main.readData) = some 1 ∧
    (let t := scanStep 0 { busyA with phase := .scan 0, pend := 1 };
      seen (step (doing .irq (.readRecord 0x20001000 .busy) t)) (fun t => t.flows.irq.readData) = some 0 ∧
      seen (step (doing .main (.readRecord 0x20001000 .busy) { t with phase := .idle })) (fun t => t.flows.main.readData) =
        some 0) := by decide

/-- R79: `engine_start` after a successful and a refused BUSY_SET, on the record's own channel (P1 step 12; V-I7). -/
theorem test_engine_start :
    (let s := { world with flows := { world.flows with
        main := { todo := [.startDecides 0x20002000], readData := 0x0000FF00, answer := none } } };
      seen (step s) (fun t => t.flows.main.todo) = some [.dmaArm 4, .giveAnswer .noValue]) ∧
    (let s := { world with flows := { world.flows with
        main := { todo := [.startDecides 0x20002000], readData := 0x0000FF05, answer := none } } };
      seen (step s) (fun t => t.flows.main.todo) = some [.giveAnswer (.status 0x05)]) := by decide

/-- V-Z2: the callback is abandoned. -/
theorem test_reset_in_callback : seen (step (inCallbackR.withSched [.platform]))
    (fun t => (t.phase, t.statusWord, t.slotInfoWord 0, t.banks)) =
    some (.idle, 0, 0x0000FF00, State.reset.banks) := by decide

/-- The first instruction after reset, for the two rows whose effect shows without a record (log entry 3). -/
theorem test_first_instruction :
    seen (step (State.reset.withFetchWord 32 0x00000001)) (fun t => t.installed) = some true ∧
    seen (step (State.reset.withFetchWord 32 0x0000000B)) (fun t => t.banks.main.result) = some 0x0000FF07 := by decide

/-! ### Witnesses: each statement's hypotheses are met, clause by clause -/

/-- The two host contexts. -/
theorem witness_host_contexts : world.phase.context? = some .main ∧ inCallbackA.phase.context? = some .irq ∧
    ({ inCallbackA with phase := .inCallback 7 }).phase.context? = some .irq := by decide

/-- A flow acts, in each context. -/
theorem doing_acts {s : State} {ctx : Context} (a : HostAction) (h : s.phase.context? = some ctx) :
    acts (doing ctx a s) ctx a := by
  refine ⟨rfl, h, ?_⟩
  cases ctx <;> rfl

theorem witness_StepRunsDecodedCommand :
    (acts (doing .main (.write 0x00 4 0x00001202) world) .main (.write 0x00 4 0x00001202) ∧
      decodeWord 0x00001202 = .ok .register) ∧
    (acts (doing .irq (.write 0x00 4 0x0000000B) inCallbackA) .irq (.write 0x00 4 0x0000000B) ∧
      decodeWord 0x0000000B = .ok .cbReturn) :=
  ⟨⟨doing_acts _ rfl, by decide⟩, ⟨doing_acts _ rfl, by decide⟩⟩

theorem witness_StepRunsTheNextAgent :
    acts (doing .main (.dmaArm 0) world) .main (.dmaArm 0) ∧
    (world.withSched [.dma 3, .dispatcher]).sched = .dma 3 :: [.dispatcher] ∧
    (({ engines with pend := 1 }).sched = [] ∧ ({ engines with pend := 1 }).phase = .idle ∧
      ({ engines with pend := 1 }).line = true) ∧
    (({ engines with phase := .scan 8 }).sched = [] ∧ ({ engines with phase := .scan 8 }).phase = .scan 8) :=
  ⟨doing_acts _ rfl, by decide, by decide, by decide⟩

theorem witness_PlacedCommandRunsNext :
    decodeTableWord 32 0x00000000 = some .nop ∧ decodeTableWord 32 0x0000FF0A = some (.srcAck 0xFF) := by decide

/-- Both clauses, at the last legal and the first illegal values of OP and of RSV. -/
theorem witness_IllegalWordWritesOnlyResult :
    ((0x0000FF0C#32).toNat / 65536 ≠ 0 ∨ 12 ≤ (0x0000FF0C#32).toNat % 256) ∧
    ((0x00010000#32).toNat / 65536 ≠ 0 ∨ 12 ≤ (0x00010000#32).toNat % 256) ∧
    ¬ ((0x0000FF0B#32).toNat / 65536 ≠ 0 ∨ 12 ≤ (0x0000FF0B#32).toNat % 256) := by decide

theorem witness_NopWritesOnlyResult : world.phase.context? = some .main ∧ inCallbackA.phase.context? = some .irq := by decide

theorem witness_InstallSetsInstalledForGood :
    (world.phase.context? = some .main ∧ engines.phase.context? = some .main ∧ engines.installed = true) ∧
    (seen (exec .nop engines) (fun t => t.installed) = some true) ∧
    (seen (agentStep .platform engines) (fun t => t.installed) = some false) ∧
    (seen (agentStep .dispatcher engines) (fun t => t.installed) = some true) := by decide

/-- The highest existing channel and the first that does not exist, in both contexts; enabled already or not; pending with the
handler installed or not. -/
theorem witness_SrcEnableSetsEnableBit :
    (world.phase.context? = some .main ∧ world.params.wellFormed = true ∧ (15#8).toNat < world.params.nDmaCh ∧
      world.params.nDmaCh ≤ (16#8).toNat) ∧
    (inCallbackA.phase.context? = some .irq ∧ inCallbackA.params.wellFormed = true ∧
      (4#8).toNat < inCallbackA.params.nDmaCh ∧ inCallbackA.enabled (4#8).toNat = true) ∧
    (({ engines with pend := 0x8000 }).pending (15#8).toNat = true ∧
      ({ engines with pend := 0x8000 }).installed = true) ∧
    (let s := { world with params := { Params.default with nDmaCh := 32 } };
      s.params.wellFormed = true ∧ (31#8).toNat < s.params.nDmaCh ∧ s.params.nDmaCh ≤ (32#8).toNat) := by decide

theorem witness_SrcDisableClearsEnableBit :
    (engines.phase.context? = some .main ∧ engines.params.wellFormed = true ∧ (0#8).toNat < engines.params.nDmaCh ∧
      (engines.slot 0).chan = 0#8) ∧
    (inCallbackA.phase.context? = some .irq ∧ inCallbackA.params.wellFormed = true ∧
      (15#8).toNat < inCallbackA.params.nDmaCh ∧ inCallbackA.params.nDmaCh ≤ (16#8).toNat) := by decide

theorem witness_SrcAckClearsPendingBit :
    (world.phase.context? = some .main ∧ world.params.wellFormed = true ∧ (15#8).toNat < world.params.nDmaCh ∧
      world.pending (15#8).toNat = false ∧ world.params.nDmaCh ≤ (16#8).toNat) ∧
    (({ inCallbackA with pend := 0x10 }).phase.context? = some .irq ∧
      ({ inCallbackA with pend := 0x10 }).pending (4#8).toNat = true) := by decide

/-- The first value that names no source, and CHAN_INVALID. -/
theorem witness_InvalidChannelChangesOnlyResult :
    (world.phase.context? = some .main ∧ world.params.nDmaCh ≤ (16#8).toNat) ∧
    (inCallbackA.phase.context? = some .irq ∧ inCallbackA.params.nDmaCh ≤ (0xFF#8).toNat) := by decide

/-- Dangling; channel 16 of 16. -/
theorem witness_RegisterFollowsItsRule_first_checks :
    ((onHandle 0 world).phase = .idle ∧ (onHandle 0 world).record? (onHandle 0 world).banks.main.argHandle = none) ∧
    (let s := onHandle 0x20001140 { world with store := [(0x20001140, { recA with chan := 16 })] };
      s.phase = .idle ∧ s.record? s.banks.main.argHandle = some { recA with chan := 16 } ∧
        s.params.nDmaCh ≤ (16#8).toNat) := by decide

/-- A duplicate in slot 4, the least that holds the handle or the channel. -/
theorem witness_RegisterFollowsItsRule_duplicate :
    let s := onHandle 0x20002000 registered;
    s.phase = .idle ∧ s.record? s.banks.main.argHandle = some recR ∧ recR.chan.toNat < s.params.nDmaCh ∧
      holdsEither s s.banks.main.argHandle recR.chan 4 ∧
      ∀ k < (4 : Fin 8), ¬ holdsEither s s.banks.main.argHandle recR.chan k := by
  unfold holdsEither; decide

/-- No duplicate, and: its source enabled; its table full; slot 0 the first free one; TX slot 2 the first free one. -/
theorem witness_RegisterFollowsItsRule_slots :
    (let s := onHandle 0x20001040 { world with en := 0x2 };
      s.record? s.banks.main.argHandle = some recB ∧ (∀ j, ¬ holdsEither s s.banks.main.argHandle recB.chan j) ∧
        s.enabled recB.chan.toNat = true) ∧
    (let s := onHandle 0x20001000 fullTx;
      s.record? s.banks.main.argHandle = some recA ∧ (∀ j, ¬ holdsEither s s.banks.main.argHandle recA.chan j) ∧
        s.enabled recA.chan.toNat = false ∧ ∀ k, (s.slot (tableIndex recA.dir k)).valid = true) ∧
    (let s := onHandle 0x20001000 world;
      s.record? s.banks.main.argHandle = some recA ∧ (∀ j, ¬ holdsEither s s.banks.main.argHandle recA.chan j) ∧
        s.enabled recA.chan.toNat = false ∧ (s.slot (tableIndex recA.dir 0)).valid = false ∧
        ∀ l < (0 : Fin 4), (s.slot (tableIndex recA.dir l)).valid = true) ∧
    (let q : Record := { recA with chan := 15 };
      let s := onHandle 0x20001080 { registered with store := [(0x20001080, q)] };
      s.record? s.banks.main.argHandle = some q ∧ (∀ j, ¬ holdsEither s s.banks.main.argHandle q.chan j) ∧
        s.enabled q.chan.toNat = false ∧ (s.slot (tableIndex q.dir 2)).valid = false ∧
        ∀ l < (2 : Fin 4), (s.slot (tableIndex q.dir l)).valid = true) := by
  unfold holdsEither; decide

theorem witness_in_callback : inCallbackA.phase = .inCallback 0 ∧
    ({ inCallbackA with phase := .inCallback 7 }).phase = .inCallback 7 := by decide

theorem registered_distinct (h : Word) (e : Word) : (onHandle h { registered with en := e }).SlotsDistinct := by
  unfold State.SlotsDistinct
  show ∀ i j : Fin 8, i ≠ j → (registered.slot i).valid = true → (registered.slot j).valid = true →
    (registered.slot i).chan ≠ (registered.slot j).chan ∧ (registered.slot i).handle ≠ (registered.slot j).handle
  decide

/-- Slot 4 with its source enabled, slot 0 with its source disabled, no slot at all. -/
theorem witness_UnregisterFollowsItsRule :
    (let s := onHandle 0x20002000 { registered with en := 0x10 };
      s.phase = .idle ∧ s.SlotsDistinct ∧ holdsHandle s s.banks.main.argHandle 4 ∧
        s.enabled (s.slot 4).chan.toNat = true) ∧
    (let s := onHandle 0x20001000 { registered with en := 0x10 };
      s.phase = .idle ∧ s.SlotsDistinct ∧ holdsHandle s s.banks.main.argHandle 0 ∧
        s.enabled (s.slot 0).chan.toNat = false) ∧
    (let s := onHandle 0 { registered with en := 0x10 };
      s.phase = .idle ∧ s.SlotsDistinct ∧ ∀ j, ¬ holdsHandle s s.banks.main.argHandle j) :=
  ⟨⟨rfl, registered_distinct _ _, by unfold holdsHandle; decide, by decide⟩,
    ⟨rfl, registered_distinct _ _, by unfold holdsHandle; decide, by decide⟩,
    ⟨rfl, registered_distinct _ _, by unfold holdsHandle; decide⟩⟩

/-- Dangling, registered in slot 4, live and not registered; in both contexts. -/
theorem witness_QueryReportsTheRecord :
    (let s := onHandle 0x20009000 world;
      s.phase.context? = some .main ∧ s.record? (s.banks.get .main).argHandle = none) ∧
    (let s := onHandle 0x20002000 registered;
      s.phase.context? = some .main ∧ s.record? (s.banks.get .main).argHandle = some recR ∧
        holdsHandle s (s.banks.get .main).argHandle 4 ∧
        ∀ k < (4 : Fin 8), ¬ holdsHandle s (s.banks.get .main).argHandle k) ∧
    (let s := onHandle 0x20001000 { world with phase := .inCallback 0 };
      s.phase.context? = some .irq ∧ s.record? (s.banks.get .irq).argHandle = some recA ∧
        ∀ j, ¬ holdsHandle s (s.banks.get .irq).argHandle j) := by
  unfold holdsHandle; decide

/-- The statements on a handle operand (SET_CALLBACK, BUSY_SET, BUSY_CLEAR): dangling, not busy, busy. -/
theorem witness_handle_operands :
    (let s := onHandle 0 world;
      s.phase.context? = some .main ∧ s.record? (s.banks.get .main).argHandle = none) ∧
    (let s := onHandle 0x20001000 world;
      s.phase.context? = some .main ∧ s.record? (s.banks.get .main).argHandle = some recA ∧ recA.busy = false ∧
        (0x20001040#32 : Word) ≠ (s.banks.get .main).argHandle) ∧
    (let s := onHandle 0x20001000 { inCallbackA with store := [(0x20001000, { recA with busy := true })] };
      s.phase.context? = some .irq ∧
        s.record? (s.banks.get .irq).argHandle = some { recA with busy := true }) := by decide

/-- CB_RETURN at the first and the last scan index, and from MAIN. -/
theorem witness_CbReturnResumesTheScan : inCallbackA.phase = .inCallback 0 ∧
    ({ inCallbackA with phase := .inCallback 7 }).phase = .inCallback 7 ∧ world.phase = .idle := by decide

theorem witness_CommandsCompleteInEveryHostContext :
    world.phase.context? = some .main ∧ inCallbackA.phase.context? = some .irq ∧
    ({ engines with phase := .scan 0 }).phase = .scan 0 ∧ ({ engines with phase := .scan 8 }).phase = .scan 8 := by decide

theorem witness_ContextTableIsObeyed :
    inCallbackA.phase = .inCallback 0 ∧ world.phase = .idle ∧
    (Context.irq = .irq → Instr.query ≠ .register ∧ Instr.query ≠ .unregister) ∧
    (Context.main = .main → Instr.register ≠ .cbReturn) ∧ (0xFC#8).toNat % 4 = 0 ∧ (0x04#8).toNat % 4 = 0 := by decide

/-- A command that records a fault, and one that fails with a status. -/
theorem witness_FailingCommandsChangeNothingElse :
    seen (exec .query (onHandle 0 world)) (fun t => t.faults == world.faults) = some false ∧
    seen (exec (.srcAck 16) world) (fun t => (t.banks == world.banks, (t.banks.get .main).result.toNat % 256)) =
      some (false, 2) := by decide

theorem witness_CommandsKeepOperandsAndOtherBank :
    world.phase.context? = some .main ∧ (nextOf (exec .busySet (onHandle 0x20001000 world))).isSome = true ∧
    Context.irq ≠ .main := by decide

/-- The window's clauses at the bounds of their ranges: 0x04 and 0x28, 0x40 and 0x7C, 0x00, 0x2C, 0x3C, 0x80, 0xFC. -/
theorem witness_WindowReadReturnsTheRegister :
    (0xFC#8).toNat % 4 = 0 ∧ ((0x04#8).toNat, (engines.banks.get .main).argHandle) ∈ windowTable engines .main ∧
    ((0x28#8).toNat, engines.curHandle) ∈ windowTable engines .main ∧
    (0x40#8).toNat = 0x40 + 8 * (0 : Fin 8).val ∧ (0x78#8).toNat = 0x40 + 8 * (7 : Fin 8).val ∧
    (0x44#8).toNat = 0x44 + 8 * (0 : Fin 8).val ∧ (0x7C#8).toNat = 0x44 + 8 * (7 : Fin 8).val ∧
    reservedOffset (0x2C#8).toNat ∧ reservedOffset (0x3C#8).toNat ∧ reservedOffset (0x80#8).toNat ∧
    reservedOffset (0xFC#8).toNat ∧ ¬ reservedOffset 0x28 ∧ ¬ reservedOffset 0x40 ∧ ¬ reservedOffset 0x7C := by
  unfold reservedOffset; decide

/-- Too narrow at an aligned address, and full width at an unaligned one. -/
theorem witness_ImproperAccessRecordsBusFault :
    ((1 : Nat) ≠ 4 ∨ (world.params.blockBase + (0x00#8).setWidth 32).toNat % 4 ≠ 0) ∧
    (inCallbackA.params.blockBase + (0xFF#8).setWidth 32).toNat % 4 ≠ 0 := by decide

/-- The bounds of the read-only and the reserved offsets, which do not overlap. -/
theorem witness_ReservedAndReadOnlyWritesAreIgnored :
    (readOnlyOffset 0x10 ∧ readOnlyOffset 0x28 ∧ readOnlyOffset 0x40 ∧ readOnlyOffset 0x7C) ∧
    (reservedOffset 0x2C ∧ reservedOffset 0x3C ∧ reservedOffset 0x80 ∧ reservedOffset 0xFC) ∧
    (¬ readOnlyOffset 0x0C ∧ ¬ readOnlyOffset 0x2C ∧ ¬ readOnlyOffset 0x80 ∧ ¬ reservedOffset 0x7C) ∧
    (0x00#8).toNat = 0x00 := by
  unfold readOnlyOffset reservedOffset; decide

theorem witness_AccessSideEffects :
    decodeWord 0x0000FF0A = .ok (.srcAck 0xFF) ∧ (0x00#8).toNat % 4 = 0 ∧ (0xFC#8).toNat % 4 = 0 := by decide

/-- Each phase of STATUS's clauses, at its bounds. -/
theorem witness_StatusRegisterFields :
    engines.phase = .idle ∧ ({ engines with phase := .scan 8 }).phase = .scan 8 ∧
    ({ inCallbackA with phase := .inCallback 7 }).phase = .inCallback 7 ∧
    engines.phase.context? = some .main ∧ inCallbackA.phase.context? = some .irq := by decide

theorem witness_EntryStepOnlyMovesThePhase :
    (let s := { engines with pend := 1 };
      s.phase = .idle ∧ s.line = true) ∧
    (engines.phase = .idle ∧ engines.line = false) ∧ inCallbackA.phase ≠ .idle := by decide

/-- Each agent where its step is not enabled. -/
theorem witness_DisabledAgentsChangeNothing :
    inCallbackA.phase ≠ .idle ∧ (∀ i, ({ engines with phase := .scan 8 }).phase ≠ .inCallback i) ∧
    ((∃ i, inCallbackA.phase = .inCallback i) ∧ engines.phase = .idle ∧ engines.line = false) ∧
    engines.isArmed 3 = false ∧ ({ engines with armed := 0x10000 }).params.nDmaCh ≤ 16 := by decide

/-- At the first and the last scan index: no hit, a dangling handle, a hit without and one with a callback. -/
theorem witness_ScanStepFollowsItsRule :
    (let s := { engines with phase := .scan 7 };
      s.phase = .scan (7 : Fin 8).castSucc ∧ ¬ hit s 7) ∧
    (let s := { engines with phase := .scan 0, pend := 1, store := [] };
      s.phase = .scan (0 : Fin 8).castSucc ∧ hit s 0 ∧ s.record? (s.slot 0).handle = none) ∧
    (let s := { engines with phase := .scan 1, pend := 2 };
      s.phase = .scan (1 : Fin 8).castSucc ∧ hit s 1 ∧ s.record? (s.slot 1).handle = some recB ∧ recB.cb = 0) ∧
    (let s := { engines with phase := .scan 4, pend := 0x10 };
      let r : Record := { recR with cb := 0x10000301, ctx := 0x2000F100 };
      s.phase = .scan (4 : Fin 8).castSucc ∧ hit s 4 ∧ s.record? (s.slot 4).handle = some r ∧ r.cb ≠ 0 ∧
        (0x20001000#32 : Word) ≠ (s.slot 4).handle) := by
  unfold hit; decide

/-- Orphans 9 and 15, the last channel, of which 9 is recorded; none because none is held back; none because the handler is
not installed. -/
theorem witness_ExitStepRecordsTheOrphan :
    (let s := { engines with phase := .scan 8, en := 0x8200, pend := 0x8200 };
      s.phase = .scan (Fin.last 8) ∧ s.installed = true ∧ orphan s 9 ∧ orphan s 15 ∧ ∀ d < 9, ¬ orphan s d) ∧
    (let s := { engines with phase := .scan 8 };
      s.phase = .scan (Fin.last 8) ∧ ∀ c, ¬ orphan s c) ∧
    ({ engines with installed := false }).installed = false := by
  refine ⟨by unfold orphan; decide, ⟨rfl, fun c h => ?_⟩, rfl⟩
  have : (0#32).getLsbD c = true := h.2.1
  simp at this

/-- A move of each kind. -/
theorem witness_PhaseMovesAreTheDispatchCycle :
    seen (step (inCallbackR.withSched [.platform])) (fun t => t.phase) = some .idle ∧
    seen (step (dispatching { engines with pend := 1 })) (fun t => t.phase) = some (.scan 0) ∧
    seen (step (dispatching { engines with phase := .scan 7 })) (fun t => t.phase) = some (.scan 8) ∧
    seen (step (dispatching { engines with phase := .scan 0, pend := 1 })) (fun t => t.phase) = some (.inCallback 0) ∧
    seen (step (dispatching { engines with phase := .scan 8 })) (fun t => t.phase) = some .idle ∧
    seen (step (doing .irq (.write 0x00 4 0x0000000B) inCallbackR)) (fun t => t.phase) = some (.scan 5) := by decide

/-- V-D2's start: B completes, no registered instance has a callback. -/
theorem witness_DispatchWithoutCallbacksIsTenSteps :
    let s := { registered with en := 0x13, installed := true, pend := 2, sched := List.replicate 10 .dispatcher };
    s.phase = .idle ∧ s.line = true ∧ s.sched = List.replicate 10 .dispatcher ∧ s.SlotsDistinct ∧
      (∀ j r, (s.slot j).valid = true → s.record? (s.slot j).handle = some r → r.cb = 0) ∧
      hit s 1 ∧ s.record? (s.slot 1).handle = some recB := by
  refine ⟨rfl, by decide, rfl, by unfold State.SlotsDistinct; decide, ?_, by unfold hit; decide, by decide⟩
  have key : ∀ j : Fin 8, (registered.slot j).valid = true →
      (registered.record? (registered.slot j).handle).all (fun r => r.cb == 0) = true := by decide
  intro j r hv hr
  have := key j hv
  rw [show registered.record? (registered.slot j).handle = some r from hr] at this
  simpa using this

theorem witness_DmaArmAndCompletion :
    (world.params.wellFormed = true ∧ 15 < world.params.nDmaCh ∧ world.isArmed 15 = false) ∧
    ({ inCallbackA with armed := 0x8000 }).isArmed 15 = true := by decide

theorem witness_DmaAbortRaisesAsConfigured :
    (world.params.wellFormed = true ∧ 15 < world.params.nDmaCh ∧ world.params.abortCompletion = .either) ∧
    ({ world with armed := 0x8000 }).isArmed 15 = true ∧ world.isArmed 15 = false ∧
    ({ Params.default with abortCompletion := .never }).abortCompletion = .never ∧
    ({ Params.default with abortCompletion := .always }).abortCompletion = .always := by decide

theorem witness_EitherAbortTakesAFreshDraw :
    world.params.wellFormed = true ∧ 2 < world.params.nDmaCh ∧ world.params.abortCompletion = .either ∧
    (nextOf (hostAction .main (.dmaAbort 2) world)).isSome = true ∧ world.isArmed 2 = false ∧
    ({ world with armed := 4 }).isArmed 2 = true ∧
    (∃ t, hostAction .main (.dmaAbort 2) { world with armed := 4 } = .next t) :=
  ⟨by decide, by decide, by decide, by decide, by decide, by decide, ⟨_, rfl⟩⟩

theorem witness_HostCreatesAndDestroysRecords :
    Store.wf world.store ∧ (0x20001080#32 : Word) ≠ 0 ∧ world.record? 0x20001080 = none ∧
    world.record? 0x20001000 = some recA := by decide

/-- A step that writes the registry by each of the three writers. -/
theorem witness_OnlyRegisterAndUnregisterWriteSlots :
    seen (step (doing .main (.write 0x00 4 2) (onHandle 0x20001000 world))) (fun t => t.slots == world.slots) =
      some false ∧
    seen (step (doing .main (.write 0x00 4 3) (onHandle 0x20001000 registered)))
      (fun t => t.slots == registered.slots) = some false ∧
    seen (step (registered.withSched [.platform])) (fun t => t.slots == State.reset.slots) = some true := by decide

/-- A busy flag set by BUSY_SET, cleared by BUSY_CLEAR, cleared by the serve step. -/
theorem witness_BusyFlagHasThreeWriters :
    Store.wf world.store ∧ world.record? 0x20001000 = some recA ∧
    seen (step (doing .main (.write 0x00 4 6) (onHandle 0x20001000 world))) (fun t => t.record? 0x20001000) =
      some (some { recA with busy := true }) ∧
    (let s := { world with store := [(0x20001000, { recA with busy := true })] };
      seen (step (doing .main (.write 0x00 4 7) (onHandle 0x20001000 s))) (fun t => t.record? 0x20001000) =
        some (some recA)) ∧
    (let s := { engines with phase := .scan 0, pend := 1, store := [(0x20001000, { recA with busy := true })] };
      seen (step (dispatching s)) (fun t => t.record? 0x20001000) = some (some recA)) := by decide

theorem witness_RecordFieldsHaveTheirWriters :
    let s := { world with banks := { world.banks with main := { Bank.reset with argHandle := 0x20001000, argFn := 9 } } };
    Store.wf s.store ∧ s.record? 0x20001000 = some recA ∧
      seen (step (doing .main (.write 0x00 4 5) s)) (fun t => t.record? 0x20001000) =
        some (some { recA with cb := 9 }) := by decide

theorem witness_FaultsOnlyGrow :
    let s := { engines with faults := [.orphanSource 9] };
    (seen (step s) (fun t => t.faults)) = some [.orphanSource 9] ∧ s.nextAgent ≠ .platform := by decide

theorem witness_ParamsNeverChange :
    seen (step (engines.withSched [.platform])) (fun t => t.params) = some Params.default := by decide

/-- A callback's command, and a DMA completion between two steps of the main flow. -/
theorem witness_MainFlowIsUndisturbedByDispatch :
    (let s := doing .irq (.write 0x00 4 0x0000000B) inCallbackA;
      (nextOf (step s)).isSome = true ∧ s.nextAgent ≠ .platform ∧ s.phase ≠ .idle) ∧
    (let s := ({ world with armed := 8 }).withSched [.dma 3];
      (nextOf (step s)).isSome = true ∧ s.nextAgent ≠ .platform ∧ s.nextAgent ≠ .host .main) := by decide

/-- A step that writes the registry, from a state that meets its invariant. -/
theorem witness_StepKeepsRegistryInvariant :
    let s := doing .main (.write 0x00 4 3) (onHandle 0x20001000 registered);
    (nextOf (step s)).isSome = true ∧ s.SlotsCanonical ∧ s.SlotsDistinct := by
  unfold State.SlotsCanonical State.SlotsDistinct; decide

/-- A step that registers, and one that creates a record under a handle that is not registered. -/
theorem witness_StepKeepsSlotsInTheirTable :
    (let s := doing .main (.write 0x00 4 2) (onHandle 0x20001000 world);
      (nextOf (step s)).isSome = true ∧ Store.wf s.store ∧ s.SlotsDirected ∧
        ∀ ctx h d c, acts s ctx (.create h d c) → ∀ j, (s.slot j).valid = true → (s.slot j).handle ≠ h) ∧
    (let s := doing .main (.create 0x20001080 .rx 5) world;
      (nextOf (step s)).isSome = true ∧
        ∀ ctx h d c, acts s ctx (.create h d c) → ∀ j, (s.slot j).valid = true → (s.slot j).handle ≠ h) := by
  have none : ∀ j, (world.slot j).valid = false := by decide
  refine ⟨⟨by decide, by decide, fun j hv => ?_, fun _ _ _ _ _ j hv => ?_⟩, by decide, fun _ _ _ _ _ j hv => ?_⟩ <;>
    exact absurd ((none j).symm.trans hv) (by decide)

/-- A hit that enters a callback, and a callback that returns. -/
theorem witness_StepKeepsLatchInvariant :
    (dispatching { engines with phase := .scan 0, pend := 1 }).LatchOk ∧
    (doing .irq (.write 0x00 4 0x0000000B) inCallbackR).LatchOk ∧
    seen (step (dispatching { engines with phase := .scan 0, pend := 1 })) (fun t => t.curFn) = some 0x10000201 := by
  refine ⟨⟨rfl, rfl, rfl⟩, ⟨by decide, by decide, by decide⟩, by decide⟩

/-- Every channel armed, pending and enabled but the absent ones, and a completion of the highest. -/
theorem witness_StepKeepsMasksInRange :
    let s := ({ world with en := 0xFFFF, pend := 0x7FFF, armed := 0x8000 }).withSched [.dma 15];
    s.MasksOk ∧ seen (step s) (fun t => t.pend) = some 0xFFFF := by
  refine ⟨fun c hc => ?_, by decide⟩
  have hc : 16 ≤ c := hc
  have hz : ∀ m : Word, m.toNat < 2 ^ 16 → m.getLsbD c = false := fun m hm =>
    Nat.testBit_lt_two_pow (Nat.lt_of_lt_of_le hm (Nat.pow_le_pow_right (by omega) hc))
  exact ⟨hz 0xFFFF (by decide), hz 0x7FFF (by decide), hz 0x8000 (by decide)⟩

/-- A record created between two others. -/
theorem witness_StepKeepsStoreCanonical :
    Store.wf (doing .main (.create 0x20001080 .tx 2) world).store ∧
    seen (step (doing .main (.create 0x20001080 .tx 2) world)) (fun t => t.store.map Prod.fst) =
      some [0x20001000, 0x20001040, 0x20001080, 0x20002000] := by decide

/-- The same fault twice is recorded once. -/
theorem witness_StepKeepsResultFieldsAndFaultSet :
    let s := doing .main (.read 0x14 2) { world with faults := [.bus 0x14 2] };
    s.ResultsOk ∧ s.faults.Nodup ∧ seen (step s) (fun t => t.faults) = some [.bus 0x14 2] := by
  refine ⟨fun ctx => ?_, by decide, by decide⟩
  cases ctx <;> decide

/-- A live record and a handle that is not live; a hit slot with a live record that is busy. -/
theorem witness_HostReadsItsRecords :
    world.record? 0x20002000 = some recR ∧ world.record? 0 = none ∧
    (let s := { engines with phase := .scan 0, pend := 1, store := [(0x20001000, { recA with busy := true })] };
      s.phase = .scan (0 : Fin 8).castSucc ∧ hit s 0 ∧
        s.record? (s.slot 0).handle = some { recA with busy := true } ∧ (nextOf (agentStep .dispatcher s)).isSome = true) := by
  unfold hit; decide

/-- A live record with a channel, one without, none at all; an accepted and a refused result; lengths 0 and 1. -/
theorem witness_EngineSequencesFollowTheirRule :
    world.record? 0x20001000 = some recA ∧ recA.chan ≠ 0xFF ∧ world.record? 0 = none ∧
    ({ world with store := [(0x20001100, { recA with chan := 0xFF })] }).record? 0x20001100 =
      some { recA with chan := 0xFF } ∧
    (0x00000400#32).toNat % 256 = 0 ∧ (0x0000FF01#32).toNat % 256 ≠ 0 ∧ (0 : Nat) ≠ 1 := by decide

end Sys2Proof.Tests
end

section
/-! SUPPORT. Proofs of the statements about the state (10_state.md). For each piece of state: what a command, a host
action, the Dispatcher and so a step can do to it, then the obligations that follow. -/

namespace Sys2Proof.Machine

open Sys2Proof.Claims

/-! ### Views that depend on one piece of state -/

theorem State.slot_congr {s t : State} (h : t.slots = s.slots) : t.slot = s.slot := by
  funext j
  simp only [State.slot, h]

theorem State.slot_of_slots_set {s t : State} {j : Fin 8} {v : Slot} (h : t.slots = s.slots.set j v) (i : Fin 8) :
    t.slot i = if j = i then v else s.slot i := by
  rw [State.slot_congr (s := s.setSlot j v) h, State.slot_setSlot]

theorem State.isChannel_iff {s : State} {c : Nat} : s.isChannel c = true ↔ c < s.params.nDmaCh := by
  simp [State.isChannel]

theorem State.isHit_iff_hit {s : State} {j : Fin 8} : s.isHit j = true ↔ hit s j := by
  simp [State.isHit, hit, and_assoc]

theorem State.recordFault_faults (s : State) (f : FaultRecord) :
    (s.recordFault f).faults = if f ∈ s.faults then s.faults else s.faults ++ [f] := by
  rw [State.recordFault_eq, State.withFaults_faults]

@[simp] theorem Banked.set_get {α : Type} (b : Banked α) (ctx : Context) : b.set ctx (b.get ctx) = b := by
  cases ctx <;> rfl

/-! ### What a command leaves as it was, and what it writes -/

section Command

variable {i : Instr} {s t : State} {ctx : Context}

/-- `exec_effect` where the context is known. -/
theorem exec_effect_in (hctx : s.phase.context? = some ctx) (h : exec i s = .next t) : CommandEffect i s ctx t := by
  obtain ⟨ctx', hctx', he⟩ := exec_effect h
  obtain rfl : ctx = ctx' := Option.some.inj (hctx.symm.trans hctx')
  exact he

theorem CommandEffect.params_eq (h : CommandEffect i s ctx t) : t.params = s.params := by
  cases h <;> simp

theorem CommandEffect.flows_eq (h : CommandEffect i s ctx t) : t.flows = s.flows := by
  cases h <;> simp

/-- A command writes RESULT of its own context, a word of R24's form, and nothing else of the banks. -/
theorem CommandEffect.banks_cases (h : CommandEffect i s ctx t) :
    t.banks = s.banks ∨
      ∃ st j x, t.banks = s.banks.set ctx { s.banks.get ctx with result := resultWord st j x } := by
  cases h with
  | dangling => exact Or.inl (State.recordFault_banks ..)
  | returns k hi hc hp => subst hc; exact Or.inr ⟨_, _, _, rfl⟩
  | _ => exact Or.inr ⟨_, _, _, rfl⟩

theorem CommandEffect.faults_cases (h : CommandEffect i s ctx t) :
    t.faults = s.faults ∨ ∃ f, t.faults = (s.recordFault f).faults := by
  cases h with
  | dangling => exact Or.inr ⟨_, rfl⟩
  | _ => exact Or.inl rfl

end Command

/-! ### What a step can do to the registry, the phase and the latch -/

/-- What only commands, the Dispatcher and a reset write: the registry, the enable bits, INSTALLED, the phase, the latch
(10_state.md R29, R30, R31, R33, R35). -/
structure SameControl (s t : State) : Prop where
  slots : t.slots = s.slots
  en : t.en = s.en
  installed : t.installed = s.installed
  phase : t.phase = s.phase
  curFn : t.curFn = s.curFn
  curCtx : t.curCtx = s.curCtx
  curHandle : t.curHandle = s.curHandle

theorem SameControl.refl (s : State) : SameControl s s := ⟨rfl, rfl, rfl, rfl, rfl, rfl, rfl⟩

theorem SameControl.recordFault (s : State) (f : FaultRecord) : SameControl s (s.recordFault f) := by
  constructor <;> simp

/-- A host action that is no legal command leaves the registry, the phase and the latch as they were. -/
theorem HostEffect.command_or_sameControl {ctx : Context} {a : HostAction} {s t : State} (h : HostEffect ctx a s t) :
    (∃ v i, a = .write 0x00 4 v ∧ decodeWord v = .ok i ∧ exec i s = .next t) ∨ SameControl s t := by
  cases h with
  | commands v i _ ha hi he => exact Or.inl ⟨v, i, ha, hi, he⟩
  | dangles | badWrite | rearms => exact Or.inr (.recordFault ..)
  | danglingRead h => exact Or.inr { SameControl.recordFault s (.danglingHandle h) with }
  | badRead off size => exact Or.inr { SameControl.recordFault s (.bus (s.busAddress off) size) with }
  | _ => exact Or.inr { SameControl.refl s with }

/-- The four kinds of steps, as far as the registry, the phase and the latch go. -/
inductive StepKind (s t : State) : Prop where
  /-- A step that waits, a host action that is no legal command, a DMA completion. -/
  | quiet (hs : SameControl s t)
  | commands (ctx : Context) (i : Instr) (hi : issues s ctx i) (he : CommandEffect i (taken s ctx) ctx t)
  | dispatches (ha : s.nextAgent = .dispatcher) (he : DispatchEffect s.popSched t)
  | resets (ha : s.nextAgent = .platform) (ht : t = platformReset s.popSched)

/-- The action a host flow's step takes is the first one it has to do. -/
theorem acts_of_todo {s : State} {ctx : Context} {a : HostAction} {rest : List HostAction}
    (ha : s.nextAgent = .host ctx) (hc : s.phase.context? = some ctx) (ht : (s.flows.get ctx).todo = a :: rest) :
    acts s ctx a :=
  ⟨ha, hc, by rw [ht]; rfl⟩

theorem step_kind {s t : State} (h : step s = .next t) : StepKind s t := by
  cases step_effect h with
  | waits => exact .quiet { SameControl.refl s with }
  | acts ctx a rest _ ha hc ht he =>
    obtain ⟨v, i, rfl, hi, hx⟩ | hs := he.command_or_sameControl
    · exact .commands ctx i ⟨v, acts_of_todo ha hc ht, hi⟩ (exec_effect_in hc hx)
    · exact .quiet { hs with }
  | dispatches _ ha he => exact .dispatches ha he
  | completes => exact .quiet { SameControl.refl s with }
  | resets ha => exact .resets ha rfl

theorem DispatchEffect.slots_eq {s t : State} (h : DispatchEffect s t) : t.slots = s.slots := by
  cases h <;> simp

theorem DispatchEffect.params_eq {s t : State} (h : DispatchEffect s t) : t.params = s.params := by
  cases h <;> simp

theorem HostEffect.params_eq {ctx : Context} {a : HostAction} {s t : State} (h : HostEffect ctx a s t) :
    t.params = s.params := by
  cases h with
  | commands v i _ ha hi he =>
    obtain ⟨_, -, he⟩ := exec_effect he
    exact he.params_eq
  | dangles | danglingRead | badRead | badWrite | rearms => simp [State.busFault]
  | _ => rfl

theorem step_params_eq {s t : State} (h : step s = .next t) : t.params = s.params := by
  cases step_effect h with
  | acts ctx a rest _ ha hc ht he => exact he.params_eq
  | dispatches _ ha he => exact he.params_eq
  | _ => rfl

/-- What a step can do to the registry (10_state.md R29). -/
inductive SlotsChange (s t : State) : Prop where
  | kept (hs : t.slots = s.slots)
  | filled (j : Fin 8) (r : Record) (hi : issues s .main .register) (hr : s.record? (s.argHandle .main) = some r)
      (hch : s.isChannel r.chan.toNat = true) (hd : s.duplicateOf (s.argHandle .main) r.chan = none)
      (hf : s.freeSlot r.dir = some j) (hst : t.store = s.store)
      (hs : t.slots = s.slots.set j { valid := true, handle := s.argHandle .main, chan := r.chan })
  | emptied (j : Fin 8) (hi : issues s .main .unregister) (hst : t.store = s.store)
      (hs : t.slots = s.slots.set j Slot.empty)
  | reset (ha : s.nextAgent = .platform) (hs : t.slots = State.reset.slots)

theorem step_slots {s t : State} (h : step s = .next t) : SlotsChange s t := by
  cases step_kind h with
  | quiet hs => exact .kept hs.slots
  | commands ctx i hi he =>
    cases he with
    | registers j r hreg hc hr hch hd hen hf =>
      subst hreg hc
      exact .filled j r hi hr hch hd hf rfl rfl
    | unregisters j hunreg hc =>
      subst hunreg hc
      exact .emptied j hi rfl rfl
    | dangling => exact .kept (State.recordFault_slots ..)
    | _ => exact .kept rfl
  | dispatches ha he => exact .kept he.slots_eq
  | resets ha ht => exact .reset ha (ht ▸ rfl)

/-- Settles O46: only the two commands that pass the context check in MAIN reach a slot, and a
reset empties all of them. -/
theorem onlyRegisterAndUnregisterWriteSlots : Obligations.OnlyRegisterAndUnregisterWriteSlots := by
  intro s t h
  refine ⟨fun hne => ?_, fun ha => ?_⟩
  · cases step_slots h with
    | kept hs => exact absurd hs hne
    | filled j r hi => exact Or.inr (Or.inl hi)
    | emptied j hi => exact Or.inr (Or.inr hi)
    | reset ha => exact Or.inl ha
  · rw [step_platform ha] at h
    cases h
    rfl

/-- Settles O38: a step that is no command, Dispatcher step or reset keeps the phase, and of the commands only
CB_RETURN moves it. -/
theorem phaseMovesAreTheDispatchCycle : Obligations.PhaseMovesAreTheDispatchCycle := by
  intro s t h hne
  cases step_kind h with
  | quiet hs => exact absurd hs.phase hne
  | commands ctx i hi he =>
    cases he with
    | returns k hret hc hp =>
      subst hret hc
      exact Or.inr (Or.inr ⟨hi, k, hp, rfl⟩)
    | dangling => exact absurd (State.recordFault_phase ..) hne
    | _ => exact absurd rfl hne
  | dispatches ha he =>
    refine Or.inr (Or.inl ⟨ha, ?_⟩)
    cases he with
    | waits => exact absurd rfl hne
    | enters hp hl => exact Or.inl ⟨hp, hl, rfl⟩
    | misses k hp | dangles k hp | serves k _ hp => exact Or.inr (Or.inl ⟨k, hp, Or.inl rfl⟩)
    | calls k r hp hh => exact Or.inr (Or.inl ⟨k, hp, Or.inr ⟨State.isHit_iff_hit.mp hh, rfl⟩⟩)
    | exits hp | exitsOrphan _ hp => exact Or.inr (Or.inr ⟨hp, rfl⟩)
  | resets ha ht => exact Or.inl ⟨ha, ht ▸ rfl⟩

/-! ### The registry invariant -/

/-- No valid slot holds a handle or a channel for which there is no duplicate (40_registry.md R91). -/
theorem State.duplicateOf_eq_none {s : State} {h : Word} {c : Byte} (hd : s.duplicateOf h c = none) {j : Fin 8}
    (hv : (s.slot j).valid = true) : (s.slot j).chan ≠ c ∧ (s.slot j).handle ≠ h := by
  have hj := State.findSlot_eq_none.mp hd j
  simp only [hv, true_and, Bool.or_eq_true, beq_iff_eq, not_or] at hj
  exact ⟨hj.2, hj.1⟩

theorem State.SlotsCanonical.congr {s t : State} (h : s.SlotsCanonical) (hs : t.slots = s.slots)
    (hp : t.params = s.params) : t.SlotsCanonical := by
  intro j
  rw [State.slot_congr hs, hp]
  exact h j

/-- Writing a canonical slot keeps the registry canonical. -/
theorem State.SlotsCanonical.set {s t : State} (h : s.SlotsCanonical) {j : Fin 8} {v : Slot}
    (hs : t.slots = s.slots.set j v) (hp : t.params = s.params)
    (hv : (v.valid = false → v = Slot.empty) ∧ (v.valid = true → v.handle ≠ 0 ∧ v.chan.toNat < s.params.nDmaCh)) :
    t.SlotsCanonical := by
  intro i
  rw [State.slot_of_slots_set hs, hp]
  split
  · exact hv
  · exact h i

theorem State.SlotsDistinct.congr {s t : State} (h : s.SlotsDistinct) (hs : t.slots = s.slots) : t.SlotsDistinct := by
  intro i j
  rw [State.slot_congr hs]
  exact h i j

/-- Writing a slot that is empty, or whose channel and handle no valid slot holds, keeps the slots distinct. -/
theorem State.SlotsDistinct.set {s t : State} (h : s.SlotsDistinct) {j : Fin 8} {v : Slot}
    (hs : t.slots = s.slots.set j v)
    (hv : v.valid = true → ∀ k, (s.slot k).valid = true → (s.slot k).chan ≠ v.chan ∧ (s.slot k).handle ≠ v.handle) :
    t.SlotsDistinct := by
  intro a b hab ha hb
  rw [State.slot_of_slots_set hs] at ha hb ⊢
  rw [State.slot_of_slots_set hs]
  obtain rfl | hja := eq_or_ne j a
  · simp only [if_true, hab, if_false] at ha hb ⊢
    exact (hv ha b hb).imp Ne.symm Ne.symm
  · obtain rfl | hjb := eq_or_ne j b
    · simp only [hja, if_false, if_true] at ha hb ⊢
      exact hv hb a ha
    · simp only [hja, hjb, if_false] at ha hb ⊢
      exact h a b hab ha hb

theorem State.slotsDistinct_of_invalid {s : State} (h : ∀ j, (s.slot j).valid = false) : s.SlotsDistinct :=
  fun i _ _ hi => by simp [h i] at hi

theorem slot_of_reset_slots {t : State} (hs : t.slots = State.reset.slots) (j : Fin 8) : t.slot j = Slot.empty := by
  rw [State.slot_congr (s := State.reset) hs]
  revert j
  decide

/-- Settles O52: the only new valid slot is REGISTER's, whose handle is live, whose channel exists and which
has no duplicate. -/
theorem stepKeepsRegistryInvariant : Obligations.StepKeepsRegistryInvariant := by
  intro s t h hc hd
  have hp := step_params_eq h
  cases step_slots h with
  | kept hs => exact ⟨hc.congr hs hp, hd.congr hs⟩
  | filled j r hi hr hch hdup hf hst hs =>
    have hz : s.argHandle .main ≠ 0 := fun e => by rw [e, State.record?_zero] at hr; cases hr
    exact ⟨hc.set hs hp ⟨nofun, fun _ => ⟨hz, State.isChannel_iff.mp hch⟩⟩,
      hd.set hs fun _ k hk => State.duplicateOf_eq_none hdup hk⟩
  | emptied j hi hst hs => exact ⟨hc.set hs hp ⟨fun _ => rfl, nofun⟩, hd.set hs nofun⟩
  | reset ha hs =>
    have he := slot_of_reset_slots hs
    refine ⟨fun j => ?_, State.slotsDistinct_of_invalid fun j => ?_⟩
    · rw [he j]; exact ⟨fun _ => rfl, nofun⟩
    · rw [he j]; rfl

/-! ### The latch -/

theorem State.latchOk_outside {s : State} (h : ∀ i, s.phase ≠ .inCallback i) :
    s.LatchOk ↔ s.curFn = 0 ∧ s.curCtx = 0 ∧ s.curHandle = 0 := by
  unfold State.LatchOk
  cases hp : s.phase with
  | inCallback i => exact absurd hp (h i)
  | _ => rfl

theorem State.latchOk_inCallback {s : State} {i : Fin 8} (h : s.phase = .inCallback i) :
    s.LatchOk ↔ s.curFn ≠ 0 ∧ (s.slot i).valid = true ∧ s.curHandle = (s.slot i).handle := by
  simp only [State.LatchOk, h, scanSlot_eq]

/-- A step between phases without a callback keeps the latch 0. -/
theorem State.LatchOk.outside {s t : State} (h : s.LatchOk) (hs : ∀ i, s.phase ≠ .inCallback i)
    (ht : ∀ i, t.phase ≠ .inCallback i)
    (hl : (t.curFn, t.curCtx, t.curHandle) = (s.curFn, s.curCtx, s.curHandle)) : t.LatchOk := by
  simp only [Prod.mk.injEq] at hl
  obtain ⟨hf, hc, hh⟩ := hl
  rw [State.latchOk_outside ht, hf, hc, hh]
  exact (State.latchOk_outside hs).mp h

/-- The latch invariant speaks of the phase, the latch and the slots. -/
theorem SameControl.latchOk {s t : State} (hs : SameControl s t) (h : s.LatchOk) : t.LatchOk := by
  unfold State.LatchOk
  rw [hs.phase, hs.curFn, hs.curCtx, hs.curHandle, State.slot_congr hs.slots]
  exact h

/-- Only CB_RETURN, which clears the latch, and the two commands of the main flow that write the registry concern the
latch invariant. -/
theorem CommandEffect.latchOk {i : Instr} {s t : State} {ctx : Context} (he : CommandEffect i s ctx t)
    (hctx : s.phase.context? = some ctx) (h : s.LatchOk) : t.LatchOk := by
  cases he with
  | returns => exact ⟨rfl, rfl, rfl⟩
  | registers j r _ hc | unregisters j _ hc =>
    have hp : s.phase = .idle := Phase.context_eq_main.mp (hc ▸ hctx)
    exact h.outside (by simp [hp]) (by simp [hp]) rfl
  | dangling => exact (SameControl.recordFault ..).latchOk h
  | _ => exact h

/-- The Dispatcher writes the latch only when it enters a callback, with a hit slot's handle (60_exceptions.md R165). -/
theorem DispatchEffect.latchOk {s t : State} (he : DispatchEffect s t) (h : s.LatchOk) : t.LatchOk := by
  cases he with
  | waits => exact h
  | enters hp | misses _ hp | serves _ _ hp | exits hp => exact h.outside (by simp [hp]) (by simp) rfl
  | dangles _ hp | exitsOrphan _ hp => exact h.outside (by simp [hp]) (by simp) (by simp)
  | calls k r hp hh hr hcb =>
    obtain ⟨hv, -⟩ := State.isHit_iff_hit.mp hh
    exact (State.latchOk_inCallback rfl).mpr ⟨hcb, hv, rfl⟩

/-- Settles O54: the latch is written with the phase, by the Dispatcher on a hit and by CB_RETURN; in a callback no
command reaches a slot. -/
theorem stepKeepsLatchInvariant : Obligations.StepKeepsLatchInvariant := by
  intro s t h hl
  cases step_kind h with
  | quiet hs => exact hs.latchOk hl
  | commands ctx i hi he =>
    obtain ⟨w, ⟨-, hctx, -⟩, -⟩ := hi
    exact he.latchOk hctx hl
  | dispatches ha he => exact he.latchOk hl
  | resets ha ht => rw [ht]; exact ⟨rfl, rfl, rfl⟩

/-! ### The channel masks -/

theorem State.MasksOk.congr {s t : State} (h : s.MasksOk) (hp : t.params = s.params)
    (hm : (t.en, t.pend, t.armed) = (s.en, s.pend, s.armed)) : t.MasksOk := by
  simp only [Prod.mk.injEq] at hm
  obtain ⟨he, hpe, har⟩ := hm
  unfold State.MasksOk State.enabled State.pending State.isArmed
  rw [hp, he, hpe, har]
  exact h

/-- Writing the bit of an existing channel leaves the bits above the channels as they were. -/
theorem getLsbD_writeBit_of_isChannel {s : State} {c d : Nat} (hc : s.isChannel c = true) (hd : s.params.nDmaCh ≤ d)
    (m : Word) (v : Bool) : (writeBit m c v).getLsbD d = m.getLsbD d := by
  have hne : d ≠ c := by
    have := State.isChannel_iff.mp hc
    omega
  rw [getLsbD_writeBit, if_neg (fun e => hne e.1)]

theorem State.MasksOk.setEnabled {s : State} (h : s.MasksOk) {c : Nat} (hc : s.isChannel c = true) (v : Bool) :
    (s.setEnabled c v).MasksOk := by
  intro d hd
  obtain ⟨he, hr⟩ := h d hd
  exact ⟨(getLsbD_writeBit_of_isChannel hc hd ..).trans he, hr⟩

theorem State.MasksOk.setPending {s : State} (h : s.MasksOk) {c : Nat} (hc : s.isChannel c = true) (v : Bool) :
    (s.setPending c v).MasksOk := by
  intro d hd
  obtain ⟨he, hp, ha⟩ := h d hd
  exact ⟨he, (getLsbD_writeBit_of_isChannel hc hd ..).trans hp, ha⟩

theorem State.MasksOk.setArmed {s : State} (h : s.MasksOk) {c : Nat} (hc : s.isChannel c = true) (v : Bool) :
    (s.setArmed c v).MasksOk := by
  intro d hd
  obtain ⟨he, hp, ha⟩ := h d hd
  exact ⟨he, hp, (getLsbD_writeBit_of_isChannel hc hd ..).trans ha⟩

/-- An acknowledgement sets no bit, whatever the channel. -/
theorem State.MasksOk.acknowledge {s : State} (h : s.MasksOk) (c : Nat) : (s.setPending c false).MasksOk := by
  intro d hd
  obtain ⟨he, hp, ha⟩ := h d hd
  refine ⟨he, ?_, ha⟩
  rw [State.pending_setPending, hp, ite_self]

theorem State.MasksOk.recordFault {s : State} (h : s.MasksOk) (f : FaultRecord) : (s.recordFault f).MasksOk :=
  h.congr (by simp) (by simp)

theorem CommandEffect.masksOk {i : Instr} {s t : State} {ctx : Context} (he : CommandEffect i s ctx t)
    (h : s.MasksOk) : t.MasksOk := by
  cases he with
  | enables c _ hc | disables c _ hc => exact h.setEnabled hc _
  | acknowledges c _ hc => exact h.setPending hc _
  | dangling => exact h.recordFault _
  | _ => exact h

theorem HostEffect.masksOk {ctx : Context} {a : HostAction} {s t : State} (he : HostEffect ctx a s t)
    (h : s.MasksOk) : t.MasksOk := by
  cases he with
  | commands v i _ _ _ hx =>
    obtain ⟨_, -, hx⟩ := exec_effect hx
    exact hx.masksOk h
  | dangles | danglingRead | badRead | badWrite | rearms => exact h.recordFault _
  | arms c _ hc => exact h.setArmed hc _
  | aborts c n _ hc => exact h.setArmed hc _
  | abortsRaising c n _ hc => exact (h.setArmed hc _).setPending (s := s.setArmed c false) hc _
  | _ => exact h

theorem DispatchEffect.masksOk {s t : State} (he : DispatchEffect s t) (h : s.MasksOk) : t.MasksOk := by
  cases he with
  | dangles | exitsOrphan => exact h.recordFault _
  | serves | calls => exact h.acknowledge _
  | _ => exact h

/-- Settles O55: every bit that is set was checked to be an existing channel's. -/
theorem stepKeepsMasksInRange : Obligations.StepKeepsMasksInRange := by
  intro s t h hm
  have hm : s.popSched.MasksOk := hm
  cases step_effect h with
  | waits => exact hm
  | acts ctx a rest _ ha hc ht he => exact he.masksOk hm
  | dispatches _ ha he => exact he.masksOk hm
  | completes c ha hc hr => exact (hm.setArmed hc _).setPending (s := s.popSched.setArmed c false) hc _
  | resets ha => exact fun c _ => by simp [State.enabled, State.pending, State.isArmed, platformReset, State.reset]

/-! ### The store of records -/

theorem CommandEffect.store_wf {i : Instr} {s t : State} {ctx : Context} (he : CommandEffect i s ctx t)
    (h : Store.wf s.store) : Store.wf t.store := by
  cases he with
  | setsCallback | setsBusy | clearsBusy => exact Store.wf_modify h ..
  | dangling => rw [State.recordFault_store]; exact h
  | _ => exact h

theorem HostEffect.store_wf {ctx : Context} {a : HostAction} {s t : State} (he : HostEffect ctx a s t)
    (h : Store.wf s.store) : Store.wf t.store := by
  cases he with
  | commands v i _ _ _ hx =>
    obtain ⟨_, -, hx⟩ := exec_effect hx
    exact hx.store_wf h
  | creates k dir chan _ hz hr => exact Store.wf_insert h hz _
  | destroys => exact Store.wf_erase h _
  | dangles | danglingRead | badRead | badWrite | rearms =>
    simp only [State.returnData_store, State.busFault, State.recordFault_store]
    exact h
  | _ => exact h

theorem DispatchEffect.store_wf {s t : State} (he : DispatchEffect s t) (h : Store.wf s.store) : Store.wf t.store := by
  cases he with
  | serves | calls => exact Store.wf_modify h ..
  | dangles | exitsOrphan => rw [State.withPhase_store, State.recordFault_store]; exact h
  | _ => exact h

/-- Settles O56: the store is written by creation, destruction and changes of a record, each of which keeps
the handles rising. -/
theorem stepKeepsStoreCanonical : Obligations.StepKeepsStoreCanonical := by
  intro s t h hw
  cases step_effect h with
  | acts ctx a rest _ ha hc ht he => exact he.store_wf hw
  | dispatches _ ha he => exact he.store_wf hw
  | resets => exact Store.wf_nil
  | _ => exact hw

/-! ### Records -/

/-- A record created under a handle that is not 0 is live there, and the others read as before. -/
theorem State.record?_withStore_insert (s : State) {h : Word} (hz : h ≠ 0) (r : Record) (k : Word) :
    (s.withStore (Store.insert s.store h r)).record? k = if h = k then some r else s.record? k := by
  simp only [State.record?, State.withStore_store, Store.find?_insert]
  by_cases hk : k = 0
  · rw [if_pos hk, if_pos hk, if_neg fun e => hz (e.trans hk)]
  · rw [if_neg hk, if_neg hk]

/-- A destroyed record is no longer live, and the others read as before. -/
theorem State.record?_withStore_erase {s : State} (hw : Store.wf s.store) (h k : Word) :
    (s.withStore (Store.erase s.store h)).record? k = if h = k then none else s.record? k := by
  simp only [State.record?, State.withStore_store]
  obtain rfl | hk := eq_or_ne h k
  · simp [Store.find?_erase_same hw]
  · simp [hk, Store.find?_erase_other]

/-- A record read after a write to the busy flag of some record was live before, and is the same but for that flag. -/
theorem State.record_of_setBusy {s : State} {k h : Word} {v : Bool} {q : Record}
    (hq : (s.setBusy k v).record? h = some q) :
    ∃ r, s.record? h = some r ∧ q = { r with busy := q.busy } := by
  rw [State.record?_setBusy] at hq
  split at hq
  · obtain ⟨r, hr, rfl⟩ := Option.map_eq_some_iff.mp hq
    exact ⟨r, hr, rfl⟩
  · exact ⟨q, hq, rfl⟩

/-- Where a record that is live after a step comes from (10_state.md R36, R37). -/
inductive RecordOrigin (s : State) (h : Word) (q : Record) : Prop where
  | kept (r : Record) (hr : s.record? h = some r) (hq : q = { r with busy := q.busy })
  | callbackSet (ctx : Context) (r : Record) (hi : issues s ctx .setCallback) (hh : s.argHandle ctx = h)
      (hr : s.record? h = some r) (hq : q = { r with cb := s.argFn ctx, ctx := s.argCtx ctx })
  | created (ctx : Context) (d : Dir) (c : Byte) (ha : acts s ctx (.create h d c)) (hr : s.record? h = none)

theorem RecordOrigin.of_store_eq {s t : State} {h : Word} {q : Record} (hs : t.store = s.store)
    (hq : t.record? h = some q) : RecordOrigin s h q :=
  .kept q (State.record?_congr hs ▸ hq) rfl

theorem RecordOrigin.of_setBusy {s t u : State} {k h : Word} {v : Bool} {q : Record} (hu : u.store = s.store)
    (hs : t.store = (u.setBusy k v).store) (hq : t.record? h = some q) : RecordOrigin s h q := by
  rw [State.record?_congr hs] at hq
  obtain ⟨r, hr, hqr⟩ := State.record_of_setBusy hq
  exact .kept r (State.record?_congr hu ▸ hr) hqr

theorem CommandEffect.record_origin {i : Instr} {s t : State} {ctx : Context} {h : Word} {q : Record}
    (he : CommandEffect i (taken s ctx) ctx t) (hi : issues s ctx i) (hq : t.record? h = some q) :
    RecordOrigin s h q := by
  cases he with
  | setsCallback r hset hr =>
    subst hset
    rw [State.record?_congr (State.setResult_store ..), State.record?_updateRecord] at hq
    split at hq
    · rename_i hh
      obtain ⟨r', hr', rfl⟩ := Option.map_eq_some_iff.mp hq
      exact .callbackSet ctx r' hi hh hr' rfl
    · exact .kept q hq rfl
  | setsBusy | clearsBusy => exact .of_setBusy (u := taken s ctx) rfl rfl hq
  | dangling => exact .of_store_eq (State.recordFault_store (taken s ctx) _) hq
  | _ => exact .of_store_eq rfl hq

theorem HostEffect.record_origin {ctx : Context} {a : HostAction} {s t : State} {h : Word} {q : Record}
    (he : HostEffect ctx a (taken s ctx) t) (ha : acts s ctx a) (hw : Store.wf s.store)
    (hq : t.record? h = some q) : RecordOrigin s h q := by
  cases he with
  | commands v i _ hwr hi hx =>
    subst hwr
    have ⟨_, hctx, _⟩ := ha
    exact (exec_effect_in (s := taken s ctx) hctx hx).record_origin ⟨v, ha, hi⟩ hq
  | creates k d c hcr hz hr =>
    subst hcr
    rw [State.record?_withStore_insert _ hz] at hq
    split at hq
    · rename_i hk
      subst hk
      exact .created ctx d c ha hr
    · exact .of_store_eq rfl hq
  | destroys k r =>
    rw [State.record?_withStore_erase (s := taken s ctx) hw] at hq
    split at hq
    · cases hq
    · exact .of_store_eq rfl hq
  | dangles | danglingRead | badRead | badWrite | rearms => exact .of_store_eq (by simp [State.busFault, taken]) hq
  | _ => exact .of_store_eq rfl hq

theorem DispatchEffect.record_origin {s t : State} {h : Word} {q : Record} (he : DispatchEffect s.popSched t)
    (hq : t.record? h = some q) : RecordOrigin s h q := by
  cases he with
  | serves k | calls k => exact .of_setBusy (u := s.popSched.setPending _ false) rfl rfl hq
  | dangles | exitsOrphan => exact .of_store_eq (by simp) hq
  | _ => exact .of_store_eq rfl hq

theorem step_record_origin {s t : State} {h : Word} {q : Record} (hs : step s = .next t) (hw : Store.wf s.store)
    (hq : t.record? h = some q) : RecordOrigin s h q := by
  cases step_effect hs with
  | acts ctx a rest _ ha hc ht he => exact he.record_origin (acts_of_todo ha hc ht) hw hq
  | dispatches _ ha he => exact he.record_origin hq
  | resets => simp [platformReset, State.record?, State.reset, Store.find?] at hq
  | _ => exact .of_store_eq rfl hq

/-- Settles O48: a record live before and after the step was kept or had its callback set. -/
theorem recordFieldsHaveTheirWriters : Obligations.RecordFieldsHaveTheirWriters := by
  intro s t h r q hw hs hr hq
  cases step_record_origin hs hw hq with
  | kept r' hr' hqr =>
    obtain rfl : r = r' := Option.some.inj (hr.symm.trans hr')
    rw [hqr]
    exact ⟨rfl, rfl, fun hne => absurd hne (by simp)⟩
  | callbackSet ctx r' hi hh hr' hqr =>
    obtain rfl : r = r' := Option.some.inj (hr.symm.trans hr')
    rw [hqr]
    exact ⟨rfl, rfl, fun _ => ⟨ctx, hi, hh, rfl, rfl⟩⟩
  | created _ _ _ _ hn => rw [hr] at hn; cases hn

/-- Settles O43: by what a lookup finds after an insertion or a removal. -/
theorem hostCreatesAndDestroysRecords : Obligations.HostCreatesAndDestroysRecords := by
  intro s ctx h hw
  refine ⟨fun d c hz hr => ⟨s.withStore (Store.insert s.store h (newRecord d c)), ?_, rfl, ?_, fun k hk => ?_⟩,
    fun r hr => ⟨s.withStore (Store.erase s.store h), ?_, rfl, ?_, fun k hk => ?_⟩⟩
  · simp only [hostAction, createRecord, if_neg hz, hr]
  · rw [State.record?_withStore_insert s hz, if_pos rfl, newRecord]
  · rw [State.record?_withStore_insert s hz, if_neg hk.symm]
  · simp only [hostAction, destroyRecord, hr]
  · rw [State.record?_withStore_erase hw, if_pos rfl]
  · rw [State.record?_withStore_erase hw, if_neg hk.symm]

/-- Unless the record under a valid slot's handle was created by this step, a slot that stood in its table
still does. -/
theorem State.SlotsDirected.of_origin {s : State} (hd : s.SlotsDirected)
    (hcreate : ∀ ctx h d c, acts s ctx (.create h d c) → ∀ j, (s.slot j).valid = true → (s.slot j).handle ≠ h)
    {j : Fin 8} (hv : (s.slot j).valid = true) {q : Record} (ho : RecordOrigin s (s.slot j).handle q) :
    q.dir = .tx ↔ j.val < 4 := by
  cases ho with
  | kept r hr hq => rw [hq]; exact hd j hv r hr
  | callbackSet ctx r hi hh hr hq => rw [hq]; exact hd j hv r hr
  | created ctx d c ha => exact absurd rfl (hcreate ctx _ d c ha j hv)

/-- Settles O53: REGISTER takes a free slot of the record's own table, and a kept record keeps its direction. -/
theorem stepKeepsSlotsInTheirTable : Obligations.StepKeepsSlotsInTheirTable := by
  intro s t hs hw hd hcreate j hv q hq
  have hkept : t.slot j = s.slot j → (q.dir = .tx ↔ j.val < 4) := fun e =>
    hd.of_origin hcreate (e ▸ hv) (e ▸ step_record_origin hs hw hq)
  cases step_slots hs with
  | kept he => exact hkept (by rw [State.slot_congr he])
  | filled k r hi hr hch hdup hf hst he =>
    have hj := State.slot_of_slots_set he j
    split at hj
    · rename_i hkj
      subst hkj
      rw [hj, State.record?_congr hst, hr] at hq
      cases hq
      exact (mem_tableSlots q.dir k).mp (State.freeSlot_eq_some.mp hf).1
    · exact hkept hj
  | emptied k hi hst he =>
    have hj := State.slot_of_slots_set he j
    split at hj
    · rw [hj] at hv; cases hv
    · exact hkept hj
  | reset ha he => rw [slot_of_reset_slots he] at hv; cases hv

/-! ### Banks and flows -/

/-- Settles O25: by the one form in which a command writes the banks. -/
theorem commandsKeepOperandsAndOtherBank : Obligations.CommandsKeepOperandsAndOtherBank := by
  intro i s t ctx hctx h
  obtain hb | ⟨st, j, x, hb⟩ := (exec_effect_in hctx h).banks_cases
  · simp [hb]
  · rw [hb]
    exact ⟨fun other ho => Banked.get_set_other _ ho _, by simp⟩

/-- A host action writes the own bank only, and RESULT there only with a word of R24's form. -/
theorem HostEffect.banks_cases {ctx : Context} {a : HostAction} {s t : State} (h : HostEffect ctx a s t)
    (hctx : s.phase.context? = some ctx) :
    ∃ b : Bank, (b.result = (s.banks.get ctx).result ∨ b.result.toNat < 2 ^ 19) ∧ t.banks = s.banks.set ctx b := by
  have keeps : t.banks = s.banks → ∃ b : Bank,
      (b.result = (s.banks.get ctx).result ∨ b.result.toNat < 2 ^ 19) ∧ t.banks = s.banks.set ctx b :=
    fun e => ⟨_, Or.inl rfl, e.trans (Banked.set_get _ _).symm⟩
  cases h with
  | commands v i _ _ _ hx =>
    obtain hb | ⟨st, j, x, hb⟩ := (exec_effect_in hctx hx).banks_cases
    · exact keeps hb
    · exact ⟨_, Or.inr (resultWord_lt st j x), hb⟩
  | illegal => exact ⟨_, Or.inr (resultWord_lt .illegal none 0), rfl⟩
  | operand b hb => exact ⟨b, Or.inl hb, rfl⟩
  | dangles | danglingRead | badRead | badWrite | rearms => exact keeps (by simp [State.busFault])
  | _ => exact keeps rfl

/-- A host action writes the own flow only. -/
theorem HostEffect.flows_cases {ctx : Context} {a : HostAction} {s t : State} (h : HostEffect ctx a s t) :
    ∃ f : HostFlow, t.flows = s.flows.set ctx f := by
  have keeps : t.flows = s.flows → ∃ f : HostFlow, t.flows = s.flows.set ctx f :=
    fun e => ⟨_, e.trans (Banked.set_get _ _).symm⟩
  cases h with
  | flows f => exact ⟨f, rfl⟩
  | danglingRead | badRead => exact ⟨{ s.flows.get ctx with readData := 0 }, by simp [State.busFault]⟩
  | commands v i _ _ _ hx =>
    obtain ⟨_, -, he⟩ := exec_effect hx
    exact keeps he.flows_eq
  | dangles | badWrite | rearms => exact keeps (by simp [State.busFault])
  | _ => exact keeps rfl

theorem DispatchEffect.banks_eq {s t : State} (h : DispatchEffect s t) : t.banks = s.banks := by
  cases h <;> simp

theorem DispatchEffect.flows_eq {s t : State} (h : DispatchEffect s t) : t.flows = s.flows := by
  cases h <;> simp

/-- Settles O51: a host flow other than Host-main acts in IRQ context, on its own bank and flow. -/
theorem mainFlowIsUndisturbedByDispatch : Obligations.MainFlowIsUndisturbedByDispatch := by
  intro s t hs hnp hnm
  cases step_effect hs with
  | acts ctx a rest _ ha hc ht he =>
    cases ctx with
    | main => exact absurd ha (hnm.resolve_left fun hp => hp (Phase.context_eq_main.mp hc))
    | irq =>
      obtain ⟨b, -, hb⟩ := he.banks_cases hc
      obtain ⟨f, hf⟩ := he.flows_cases
      rw [hb, hf]
      exact ⟨rfl, rfl⟩
  | dispatches _ ha he => rw [he.banks_eq, he.flows_eq]; exact ⟨rfl, rfl⟩
  | resets ha => exact absurd ha hnp
  | _ => exact ⟨rfl, rfl⟩

/-! ### RESULT and the fault set -/

theorem State.ResultsOk.congr {s t : State} (h : s.ResultsOk) (hb : t.banks = s.banks) : t.ResultsOk := by
  intro ctx
  rw [hb]
  exact h ctx

theorem State.ResultsOk.set {s t : State} (h : s.ResultsOk) {ctx : Context} {b : Bank}
    (hb : b.result = (s.banks.get ctx).result ∨ b.result.toNat < 2 ^ 19) (ht : t.banks = s.banks.set ctx b) :
    t.ResultsOk := by
  intro other
  rw [ht]
  obtain rfl | ho := eq_or_ne other ctx
  · rw [Banked.get_set_same]
    exact hb.elim (fun e => e ▸ h other) id
  · rw [Banked.get_set_other _ ho]
    exact h other

theorem State.reset_resultsOk : State.reset.ResultsOk := fun ctx => by cases ctx <;> decide

theorem step_keeps_resultsOk {s t : State} (hs : step s = .next t) (h : s.ResultsOk) : t.ResultsOk := by
  have h : s.popSched.ResultsOk := h
  cases step_effect hs with
  | acts ctx a rest _ ha hc ht he =>
    obtain ⟨b, hb, hbt⟩ := he.banks_cases hc
    exact h.set hb hbt
  | dispatches _ ha he => exact h.congr he.banks_eq
  | resets => exact State.reset_resultsOk.congr rfl
  | _ => exact h

theorem HostEffect.faults_cases {ctx : Context} {a : HostAction} {s t : State} (h : HostEffect ctx a s t) :
    t.faults = s.faults ∨ ∃ f, t.faults = (s.recordFault f).faults := by
  cases h with
  | commands v i _ _ _ hx =>
    obtain ⟨_, -, he⟩ := exec_effect hx
    exact he.faults_cases
  | dangles | danglingRead | badRead | badWrite | rearms => exact Or.inr ⟨_, rfl⟩
  | _ => exact Or.inl rfl

theorem DispatchEffect.faults_cases {s t : State} (h : DispatchEffect s t) :
    t.faults = s.faults ∨ ∃ f, t.faults = (s.recordFault f).faults := by
  cases h with
  | dangles | exitsOrphan => exact Or.inr ⟨_, rfl⟩
  | _ => exact Or.inl rfl

/-- A step leaves the fault set, adds one record to it, or is a reset, which empties it (10_state.md R45). -/
theorem step_faults {s t : State} (hs : step s = .next t) :
    t.faults = s.faults ∨ (∃ f, t.faults = (s.recordFault f).faults) ∨
      (s.nextAgent = .platform ∧ t.faults = []) := by
  have hpop : ∀ u : State, u.faults = s.faults → ∀ f, (u.recordFault f).faults = (s.recordFault f).faults :=
    fun u e f => by rw [State.recordFault_faults, State.recordFault_faults, e]
  cases step_effect hs with
  | acts ctx a rest _ ha hc ht he =>
    exact he.faults_cases.imp id fun ⟨f, hf⟩ => Or.inl ⟨f, hf.trans (hpop _ (by rfl) f)⟩
  | dispatches _ ha he =>
    exact he.faults_cases.imp id fun ⟨f, hf⟩ => Or.inl ⟨f, hf.trans (hpop _ (by rfl) f)⟩
  | resets ha => exact Or.inr (Or.inr ⟨ha, rfl⟩)
  | _ => exact Or.inl rfl

/-- Settles O57: every RESULT word a step writes has R24's form, and a record joins the set only if it is not there. -/
theorem stepKeepsResultFieldsAndFaultSet : Obligations.StepKeepsResultFieldsAndFaultSet := by
  intro s t hs
  refine ⟨step_keeps_resultsOk hs, fun hn => ?_⟩
  obtain hf | ⟨f, hf⟩ | ⟨-, hf⟩ := step_faults hs
  · exact hf ▸ hn
  · exact hf ▸ State.recordFault_nodup hn
  · exact hf ▸ List.nodup_nil

/-! ### The line and the window's registers -/

/-- Settles O33: by the definition of the line and of the input it drives. -/
theorem lineIsInstalledAndSomeSource : Obligations.LineIsInstalledAndSomeSource := by
  intro s
  refine ⟨?_, fun k => ?_⟩
  · simp [State.line]
  · simp [State.hostInterrupt]

/-- The slot registers stand at `0x40 + 8n` and `0x44 + 8n` (10_state.md R21). -/
theorem windowReg_slotInfo (n : Fin 8) : windowReg (BitVec.ofNat 8 (0x40 + 8 * n.val)) = .slotInfo n := by
  revert n; decide

theorem windowReg_slotHandle (n : Fin 8) : windowReg (BitVec.ofNat 8 (0x44 + 8 * n.val)) = .slotHandle n := by
  revert n; decide

/-- No register stands at a reserved offset (10_state.md R21). -/
theorem windowReg_reserved {off : Byte} : reservedOffset off.toNat → windowReg off = .reserved := by
  revert off; unfold reservedOffset; decide

theorem eq_ofNat_of_toNat {off : Byte} {n : Nat} (h : off.toNat = n) : off = BitVec.ofNat 8 n := by
  rw [← h, BitVec.ofNat_toNat, BitVec.setWidth_eq]

/-- A proper read returns what the register at its offset reads (20_memory.md R51). -/
theorem busRead_proper {off : Byte} (ho : off.toNat % 4 = 0) (s : State) (ctx : Context) :
    busRead s ctx off 4 = s.returnData ctx (s.readReg ctx (windowReg off)) := by
  simp [busRead, properAccess, ho]

/-- The registers below the slots read what the register map says (10_state.md R21). -/
theorem readReg_windowTable (s : State) (ctx : Context) :
    ∀ e ∈ windowTable s ctx, s.readReg ctx (windowReg (BitVec.ofNat 8 e.1)) = e.2 := by
  simp only [windowTable, List.forall_mem_cons]
  exact ⟨rfl, rfl, rfl, rfl, rfl, rfl, rfl, rfl, rfl, rfl, nofun⟩

/-- Settles O26: register by register, in the order of the register map. -/
theorem windowReadReturnsTheRegister : Obligations.WindowReadReturnsTheRegister := by
  intro s ctx off ho
  refine ⟨s.readReg ctx (windowReg off), ?_, fun w hw => ?_, fun n hn => ?_, fun n hn => ?_, fun h => ?_⟩
  · rw [hostAction, busRead_proper ho]; rfl
  · simpa using readReg_windowTable s ctx _ hw
  · rw [eq_ofNat_of_toNat hn, windowReg_slotInfo]; rfl
  · rw [eq_ofNat_of_toNat hn, windowReg_slotHandle]; rfl
  · obtain h | h := h
    · rw [eq_ofNat_of_toNat h]; rfl
    · rw [windowReg_reserved h]; rfl

/-- Bit `c` of a mask register: 0 above the channels (10_state.md R39). -/
theorem State.getLsbD_channelMask (s : State) (m : Word) (c : Nat) :
    (s.channelMask m).getLsbD c = (decide (c < s.params.nDmaCh) && m.getLsbD c) := by
  rw [State.channelMask, BitVec.getLsbD_and, BitVec.getLsbD_ofNat, Nat.testBit_two_pow_sub_one]
  by_cases hc : c < 32
  · simp [hc, Bool.and_comm]
  · simp [BitVec.getLsbD_of_ge m c (Nat.le_of_not_lt hc)]

/-- Settles O31: a mask register is the mask cut at N_DMA_CH, and neither a read nor a write of it reaches the masks. -/
theorem sourceMaskRegisters : Obligations.SourceMaskRegisters := by
  refine ⟨fun s ctx c => ⟨s.getLsbD_channelMask s.en c, s.getLsbD_channelMask s.pend c⟩,
    fun s ctx v => ⟨rfl, rfl, fun off ho => ?_⟩, fun ctx => by cases ctx <;> decide⟩
  have hal : off.toNat % 4 = 0 := by obtain rfl | rfl := ho <;> rfl
  rw [busRead_proper hal]
  exact ⟨rfl, rfl⟩

/-- SLOTn_INFO as a number (10_state.md R40). -/
theorem State.slotInfoWord_eq (s : State) (n : Fin 8) :
    s.slotInfoWord n = BitVec.ofNat 32 ((s.slot n).chan.toNat * 256 + (s.slot n).valid.toNat) := by
  have hc := (s.slot n).chan.isLt
  have hv := Bool.toNat_le (s.slot n).valid
  apply BitVec.eq_of_toNat_eq
  simp only [State.slotInfoWord, toNat_append_mul, BitVec.toNat_ofNat, BitVec.toNat_ofBool]
  omega

/-- Settles O32: slot `n`'s registers are at the offsets the register map says, and SLOTn_INFO is the sum of
its fields. -/
theorem slotRegistersShowTheSlot : Obligations.SlotRegistersShowTheSlot := by
  refine ⟨fun s ctx n => ?_, fun ctx n => ?_⟩
  · rw [windowReg_slotInfo, windowReg_slotHandle]
    exact ⟨s.slotInfoWord_eq n, rfl, fun v => ⟨rfl, rfl⟩⟩
  · rw [windowReg_slotInfo, windowReg_slotHandle]
    have hs : State.reset.slot n = Slot.empty := slot_of_reset_slots rfl n
    simp only [State.readReg, State.slotInfoWord_eq, hs]
    decide

/-! ### STATUS -/

theorem State.slotCount_le (s : State) (d : Dir) : s.slotCount d ≤ 4 := by
  have hl := List.countP_le_length (p := fun j => (s.slot j).valid) (l := tableSlots d)
  cases d <;> exact hl

/-- The number of valid slots of a direction's table (10_state.md R38). -/
theorem State.slotCount_eq_card (s : State) (d : Dir) :
    s.slotCount d = (Finset.univ.filter fun j : Fin 8 => j ∈ tableSlots d ∧ (s.slot j).valid = true).card := by
  have hn : ((tableSlots d).filter fun j => (s.slot j).valid).Nodup :=
    ((tableSlots_sorted d).imp fun h => h.ne).filter _
  rw [State.slotCount, List.countP_eq_length_filter, ← List.toFinset_card_of_nodup hn]
  congr 1
  ext j
  simp

theorem Phase.scanIndex_lt (p : Phase) : p.scanIndex < 16 := by
  cases p with
  | idle => decide
  | scan i => exact i.isLt.trans (by decide)
  | inCallback i => exact i.isLt.trans (by decide)

/-- STATUS as a number, field by field (10_state.md R38). -/
theorem State.statusWord_toNat (s : State) :
    s.statusWord.toNat = s.slotCount .rx * 4096 + s.slotCount .tx * 256 + s.phase.scanIndex * 16
      + s.phase.isCallback.toNat * 8 + s.phase.inDispatch.toNat * 4 + s.line.toNat * 2 + s.installed.toNat := by
  have hr := s.slotCount_le .rx
  have ht := s.slotCount_le .tx
  have hi := s.phase.scanIndex_lt
  simp only [State.statusWord, toNat_append_mul, BitVec.toNat_ofNat, BitVec.toNat_ofBool]
  omega

/-- A bit of a word, from the word as a number. -/
theorem getLsbD_of_toNat {w : Word} {i : Nat} {b : Bool} (h : w.toNat / 2 ^ i % 2 = b.toNat) : w.getLsbD i = b := by
  rw [BitVec.getLsbD, Nat.testBit_eq_decide_div_mod_eq, h]
  cases b <;> rfl

/-- The fields of STATUS, its reserved bits 11 and 31:15 included, read off by division (10_state.md R38). -/
theorem State.statusWord_fields (s : State) :
    s.statusWord.toNat / 2 ^ 0 % 2 = s.installed.toNat ∧ s.statusWord.toNat / 2 ^ 1 % 2 = s.line.toNat ∧
    s.statusWord.toNat / 2 ^ 2 % 2 = s.phase.inDispatch.toNat ∧
    s.statusWord.toNat / 2 ^ 3 % 2 = s.phase.isCallback.toNat ∧
    s.statusWord.toNat / 16 % 16 = s.phase.scanIndex ∧ s.statusWord.toNat / 256 % 8 = s.slotCount .tx ∧
    s.statusWord.toNat / 2 ^ 11 % 2 = 0 ∧ s.statusWord.toNat / 4096 % 8 = s.slotCount .rx ∧
    s.statusWord.toNat / 2 ^ 15 = 0 := by
  have hr := s.slotCount_le .rx
  have ht := s.slotCount_le .tx
  have hi := s.phase.scanIndex_lt
  have hc := Bool.toNat_le s.phase.isCallback
  have hd := Bool.toNat_le s.phase.inDispatch
  have hl := Bool.toNat_le s.line
  have hn := Bool.toNat_le s.installed
  rw [State.statusWord_toNat]
  omega

theorem Phase.inDispatch_iff (p : Phase) : p.inDispatch = true ↔ p ≠ .idle := by
  cases p <;> simp [Phase.inDispatch]

theorem Phase.isCallback_iff (p : Phase) : p.isCallback = true ↔ ∃ i, p = .inCallback i := by
  cases p <;> simp [Phase.isCallback]

/-- Settles O30: STATUS as a sum of its fields, each read off by division; the counts are those of the two tables. -/
theorem statusRegisterFields : Obligations.StatusRegisterFields := by
  refine ⟨fun s ctx w hw => ?_, fun ctx => by cases ctx <;> decide⟩
  have hw : w = s.statusWord := hw
  subst hw
  obtain ⟨hinst, hline, hdisp, hcb, hidx, htx, h11, hrx, htop⟩ := s.statusWord_fields
  rw [getLsbD_of_toNat hinst, getLsbD_of_toNat hline, getLsbD_of_toNat hdisp, getLsbD_of_toNat hcb, hidx, htx, hrx,
    State.slotCount_eq_card, State.slotCount_eq_card]
  refine ⟨rfl, rfl, s.phase.inDispatch_iff, s.phase.isCallback_iff, fun hp => by rw [hp]; rfl,
    fun i hp => by rw [hp]; rfl, fun i hp => by rw [hp]; rfl, ?_,
    getLsbD_of_toNat (b := false) h11, ?_, htop, fun hm => ?_, fun hi => ?_,
    fun v => rfl⟩
  · simp [mem_tableSlots]
  · simp [mem_tableSlots]
  · rw [Phase.context_eq_main.mp hm]; rfl
  · obtain ⟨i, hp⟩ := Phase.context_eq_irq.mp hi
    rw [hp]
    exact ⟨rfl, rfl⟩

/-! ### Reset -/

/-- Settles O44: item by item. -/
theorem resetValues : Obligations.ResetValues := by
  refine ⟨fun j => slot_of_reset_slots rfl j, fun c => ?_, rfl, rfl, rfl, rfl, rfl, fun ctx => ?_, rfl, fun h => ?_,
    by decide, by decide, by decide, by decide⟩
  · simp [State.enabled, State.pending, State.isArmed, State.reset]
  · cases ctx <;> rfl
  · simp [State.record?, State.reset, Store.find?]

/-- Settles O58: every slot is empty, every mask, the latch and the store too. -/
theorem resetMeetsTheInvariants : Obligations.ResetMeetsTheInvariants := by
  obtain ⟨hs, hmasks, -⟩ := resetValues
  replace hs : ∀ j, State.reset.slot j = Slot.empty := hs
  refine ⟨fun j => ?_, State.slotsDistinct_of_invalid fun j => ?_, fun j hv => ?_, ⟨rfl, rfl, rfl⟩, fun c _ => ?_,
    Store.wf_nil, State.reset_resultsOk, List.nodup_nil, by decide⟩
  · rw [hs j]; exact ⟨fun _ => rfl, nofun⟩
  · rw [hs j]; rfl
  · rw [hs j] at hv; cases hv
  · exact hmasks c

end Sys2Proof.Machine
end

section
/-! SUPPORT. Proofs of the statements about host accesses to the window (20_memory.md): the access it does not take, the
writes it ignores, and what a proper access does. -/

namespace Sys2Proof.Machine

open Sys2Proof.Claims

/-! ### Recording a fault -/

/-- Recording a fault is the claims' `recordsOnly` (60_exceptions.md R161). -/
theorem recordsOnly_recordFault (s : State) (f : FaultRecord) : recordsOnly s (s.recordFault f) f :=
  ⟨by rw [State.recordFault_eq]; rfl, fun _ => State.mem_recordFault⟩

/-- A fault joins the set before or after a value is returned to a flow: one state. -/
theorem State.returnData_recordFault (s : State) (f : FaultRecord) (ctx : Context) (v : Word) :
    (s.recordFault f).returnData ctx v = (s.returnData ctx v).recordFault f := by
  rw [State.recordFault_eq, State.recordFault_eq]; rfl

/-! ### Accesses the window does not take -/

/-- `BLOCK_BASE` is 256-byte aligned, so an address is aligned iff its offset is (00_scope.md R8, 20_memory.md R51). -/
theorem State.busAddress_mod_four (s : State) (off : Byte) : (s.busAddress off).toNat % 4 = off.toNat % 4 := by
  simp only [State.busAddress, Params.blockBase, BitVec.toNat_add, toNat_append_mul, BitVec.toNat_ofNat,
    BitVec.toNat_setWidth]
  omega

theorem State.properAccess_eq_false {s : State} {off : Byte} {size : Nat}
    (h : size ≠ 4 ∨ (s.busAddress off).toNat % 4 ≠ 0) : properAccess off size = false := by
  rw [State.busAddress_mod_four] at h
  simpa [properAccess, ← imp_iff_not_or] using h

theorem busWrite_improper {off : Byte} {size : Nat} (h : properAccess off size = false) (s : State) (ctx : Context)
    (v : Word) : busWrite s ctx off size v = .next (s.busFault off size) := by
  simp [busWrite, h]

theorem busRead_improper {off : Byte} {size : Nat} (h : properAccess off size = false) (s : State) (ctx : Context) :
    busRead s ctx off size = (s.busFault off size).returnData ctx 0 := by
  simp [busRead, h]

/-- Settles O27: the access is no proper one, and its fault is recorded before the 0 is returned. -/
theorem improperAccessRecordsBusFault : Obligations.ImproperAccessRecordsBusFault := by
  intro s ctx off size h
  have hp : properAccess off size = false := State.properAccess_eq_false h
  refine ⟨fun v => ⟨_, busWrite_improper hp s ctx v, recordsOnly_recordFault ..⟩,
    ⟨_, congrArg Host.Outcome.next (busRead_improper hp s ctx), ?_⟩⟩
  rw [State.busFault, State.returnData_recordFault]
  exact recordsOnly_recordFault ..

/-! ### Writes the window ignores -/

/-- A register a write does not change (20_memory.md R53): all but CMD and the three ARG registers. -/
def WindowReg.ignoresWrites : WindowReg → Bool
  | .cmd | .argHandle | .argFn | .argCtx => false
  | _ => true

theorem writeReg_of_ignoresWrites {r : WindowReg} (h : r.ignoresWrites = true) (s : State) (ctx : Context) (v : Word) :
    writeReg s ctx v r = .next s := by
  cases r with
  | cmd | argHandle | argFn | argCtx => cases h
  | _ => rfl

/-- A read-only register stands at every read-only offset (10_state.md R21). -/
theorem windowReg_readOnly {off : Byte} : readOnlyOffset off.toNat → (windowReg off).ignoresWrites = true := by
  revert off; unfold readOnlyOffset; decide

/-- A proper write does what the register at its offset does (20_memory.md R51). -/
theorem busWrite_proper {off : Byte} (ho : off.toNat % 4 = 0) (s : State) (ctx : Context) (v : Word) :
    busWrite s ctx off 4 v = writeReg s ctx v (windowReg off) := by
  simp [busWrite, properAccess, ho]

/-- Settles O28: by the register that stands at the offset. -/
theorem reservedAndReadOnlyWritesAreIgnored : Obligations.ReservedAndReadOnlyWritesAreIgnored := by
  refine fun s ctx off => ⟨fun v h => ?_, fun h => ?_⟩
  · have hal : off.toNat % 4 = 0 := h.elim And.left And.left
    have hr : (windowReg off).ignoresWrites = true :=
      h.elim (fun hres => by rw [windowReg_reserved hres]; rfl) windowReg_readOnly
    rw [hostAction, busWrite_proper hal, writeReg_of_ignoresWrites hr]
  · obtain ⟨v, hread, -, -, -, hzero⟩ := windowReadReturnsTheRegister s ctx off (h.elim And.left fun h0 => by rw [h0])
    rw [hread, hzero h.symm]

/-! ### What a proper access does -/

/-- No register shows what a read returned to a flow. -/
theorem State.readReg_returnData (s : State) (ctx other : Context) (v : Word) (r : WindowReg) :
    (s.returnData other v).readReg ctx r = s.readReg ctx r := by
  cases r <;> rfl

theorem State.returnData_returnData (s : State) (ctx : Context) (v w : Word) :
    (s.returnData ctx v).returnData ctx w = s.returnData ctx w := by
  cases ctx <;> rfl

/-- A write of a legal word to CMD executes its command (20_memory.md R54, R55). -/
theorem writeCmd_legal {w : Word} {i : Instr} (h : decodeWord w = .ok i) (s : State) (ctx : Context) :
    writeCmd s ctx w = exec i s := by
  simp [writeCmd, h]

/-- Settles O29: the register at each of the four written offsets, and a read that finds what the first one found. -/
theorem accessSideEffects : Obligations.AccessSideEffects := by
  refine ⟨fun s ctx w i hw => writeCmd_legal hw s ctx, fun s ctx v => ⟨rfl, rfl, rfl⟩, fun s ctx off ho => ?_⟩
  have hagain : busRead (s.returnData ctx (s.readReg ctx (windowReg off))) ctx off 4
      = s.returnData ctx (s.readReg ctx (windowReg off)) := by
    rw [busRead_proper ho, State.readReg_returnData, State.returnData_returnData]
  exact ⟨_, congrArg Host.Outcome.next (busRead_proper ho s ctx), congrArg Host.Outcome.next hagain⟩

end Sys2Proof.Machine
end

section
/-! SUPPORT. Proofs of the statements about the encoding (30_encoding.md): when a word spells a command, what an illegal
word does, and what a failing command leaves as it was. -/

namespace Sys2Proof

/-! ### Words by their fields -/

/-- A word is its three fields side by side (30_encoding.md R70). -/
theorem append_fields (w : Word) : rsvField w ++ chanField w ++ opField w = w := by
  apply BitVec.eq_of_toNat_eq
  have hw := w.isLt
  rw [toNat_append_mul, toNat_append_mul, opField_toNat, chanField_toNat, rsvField, BitVec.extractLsb'_toNat,
    Nat.shiftRight_eq_div_pow]
  omega

/-- The mask of 30_encoding.md R73 keeps RSV and OP and clears CHAN. -/
theorem and_mask (w : Word) : w &&& 0xFFFF00FF#32 = rsvField w ++ 0#8 ++ opField w := by
  have hmask : 0xFFFF00FF#32 = BitVec.allOnes 16 ++ 0#8 ++ BitVec.allOnes 8 := by decide
  calc w &&& 0xFFFF00FF#32
      = (rsvField w ++ chanField w ++ opField w) &&& (BitVec.allOnes 16 ++ 0#8 ++ BitVec.allOnes 8) := by
        rw [append_fields, hmask]
    _ = rsvField w ++ 0#8 ++ opField w := by
        rw [BitVec.and_append, BitVec.and_append, BitVec.and_allOnes, BitVec.and_allOnes, BitVec.and_zero]

/-- A word under the mask is a zero-extended byte iff RSV is 0 and OP is that byte. -/
theorem and_mask_eq_iff (w : Word) (o : Byte) :
    w &&& 0xFFFF00FF#32 = o.setWidth 32 ↔ rsvField w = 0 ∧ opField w = o := by
  have ho := o.isLt
  have hop := (opField w).isLt
  rw [and_mask, ← BitVec.toNat_inj, ← BitVec.toNat_inj, ← BitVec.toNat_inj, toNat_append_mul, toNat_append_mul,
    BitVec.toNat_setWidth]
  simp only [BitVec.ofNat_eq_ofNat, BitVec.toNat_ofNat]
  omega

theorem rsvField_encode (i : Instr) : rsvField (encode i) = 0 := by
  have hc := (chanOperand i).isLt
  have ho := (opcode i).isLt
  rw [rsvField_eq_zero_iff, encode_toNat]
  omega

theorem opField_encode (i : Instr) : opField (encode i) = opcode i := by
  have ho := (opcode i).isLt
  apply BitVec.eq_of_toNat_eq
  rw [opField_toNat, encode_toNat]
  omega

theorem chanField_encode (i : Instr) : chanField (encode i) = chanOperand i := by
  have hc := (chanOperand i).isLt
  have ho := (opcode i).isLt
  apply BitVec.eq_of_toNat_eq
  rw [chanField_toNat, encode_toNat]
  omega

/-! ### When a word spells a command -/

/-- The command is one of the three that use CHAN, with operand `c` (30_encoding.md R72, R74). -/
def Instr.UsesChan (i : Instr) (c : Byte) : Prop := i = .srcEnable c ∨ i = .srcDisable c ∨ i = .srcAck c

theorem Instr.UsesChan.chanOperand_eq {i : Instr} {c : Byte} (h : i.UsesChan c) : chanOperand i = c := by
  obtain rfl | rfl | rfl := h <;> rfl

theorem opcode_lt (i : Instr) : (opcode i).toNat < 12 := by
  cases i <;> simp [opcode]

/-- RSV 0, the command's opcode and, where it uses CHAN, its operand spell the command (30_encoding.md R73). -/
theorem decodeWord_of_fields {w : Word} {i : Instr} (hr : rsvField w = 0) (ho : opField w = opcode i)
    (hc : ∀ c, i.UsesChan c → c = chanField w) : decodeWord w = .ok i := by
  cases i with
  | srcEnable c => rw [hc c (Or.inl rfl)]; simp [decodeWord, hr, ho, opcode]
  | srcDisable c => rw [hc c (Or.inr (Or.inl rfl))]; simp [decodeWord, hr, ho, opcode]
  | srcAck c => rw [hc c (Or.inr (Or.inr rfl))]; simp [decodeWord, hr, ho, opcode]
  | _ => simp [decodeWord, hr, ho, opcode]

/-- A word spells a command iff RSV is 0, OP is its opcode and CHAN is its operand where it uses one (30_encoding.md R73,
R74). -/
theorem decodeWord_eq_ok_iff {w : Word} {i : Instr} :
    decodeWord w = .ok i ↔ rsvField w = 0 ∧ opField w = opcode i ∧ ∀ c, i.UsesChan c → c = chanField w := by
  refine ⟨fun h => ?_, fun ⟨hr, ho, hc⟩ => decodeWord_of_fields hr ho hc⟩
  have hr : rsvField w = 0 := by
    by_contra hr
    rw [decodeWord_reservedBits hr] at h
    cases h
  have ho : (opField w).toNat < 12 := by
    by_contra ho
    rw [decodeWord_reservedOpcode hr (Nat.le_of_not_lt ho)] at h
    cases h
  obtain ⟨j, hj, hop, hch⟩ := decodeWord_command hr ho
  obtain rfl : i = j := Except.ok.inj (h.symm.trans hj)
  refine ⟨hr, hop.symm, fun c hc => ?_⟩
  obtain hch | ⟨-, hne⟩ := hch
  · exact hc.chanOperand_eq.symm.trans hch
  · obtain ⟨h1, h2, h3⟩ := hne c
    exact (hc.elim h1 fun hc => hc.elim h2 h3).elim

/-- Settles O1: the fields of the encoded word are the command's, and its bytes are decoded as the word. -/
theorem decodeOfEncodeIsIdentity : Obligations.DecodeOfEncodeIsIdentity := by
  intro i rest
  have hword : decodeWord (encode i) = .ok i :=
    decodeWord_of_fields (rsvField_encode i) (opField_encode i)
      fun c hc => hc.chanOperand_eq.symm.trans (chanField_encode i).symm
  exact ⟨hword, by rw [decodeBytes_wordBytes, hword]⟩

/-- Settles O2: mask and match speak of RSV and OP, the rest of CHAN. -/
theorem wordSpellsCommandByMaskAndMatch : Obligations.WordSpellsCommandByMaskAndMatch := by
  intro w i
  rw [decodeWord_eq_ok_iff, and_mask_eq_iff, and_assoc]
  simp only [← BitVec.toNat_inj, chanField_toNat, Instr.UsesChan]

/-! ### Illegal words -/

theorem legalWord_iff (w : Word) : legalWord w = true ↔ rsvField w = 0 ∧ (opField w).toNat < 12 := by
  rw [rsvField_eq_zero_iff, opField_toNat]
  simp only [legalWord, Bool.and_eq_true, beq_iff_eq, decide_eq_true_eq]

theorem legalWord_eq_false_iff (w : Word) :
    legalWord w = false ↔ (w.toNat / 65536 ≠ 0 ∨ 12 ≤ w.toNat % 256) := by
  rw [← Bool.not_eq_true, legalWord_iff, rsvField_eq_zero_iff, opField_toNat]
  omega

/-- A word spells a command iff it is legal (30_encoding.md R75). -/
theorem exists_decodeWord_ok_iff (w : Word) : (∃ i, decodeWord w = .ok i) ↔ legalWord w = true := by
  rw [legalWord_iff]
  constructor
  · rintro ⟨i, h⟩
    obtain ⟨hr, ho, -⟩ := decodeWord_eq_ok_iff.mp h
    exact ⟨hr, ho ▸ opcode_lt i⟩
  · rintro ⟨hr, ho⟩
    obtain ⟨i, hi, -⟩ := decodeWord_command hr ho
    exact ⟨i, hi⟩

/-- A word is refused iff it is not legal (30_encoding.md R75). -/
theorem exists_decodeWord_error_iff (w : Word) : (∃ e, decodeWord w = .error e) ↔ legalWord w = false := by
  rw [← Bool.not_eq_true, ← exists_decodeWord_ok_iff]
  cases decodeWord w <;> simp

/-- Settles O3: the legal words are those whose RSV and OP are in range. -/
theorem decoderRefusesExactlyIllegalWords : Obligations.DecoderRefusesExactlyIllegalWords := fun w =>
  ⟨(exists_decodeWord_error_iff w).trans (legalWord_eq_false_iff w), exists_decodeWord_ok_iff w⟩

/-- Settles O4: word by word. -/
theorem specExampleWordsDecode : Obligations.SpecExampleWordsDecode :=
  ⟨rfl, rfl, rfl, rfl, rfl, rfl, rfl, rfl, rfl⟩

end Sys2Proof

namespace Sys2Proof.Machine

open Sys2Proof.Claims

/-! ### Writing an illegal word to CMD -/

/-- `result(status, slot, extra)` is the claims' `withResult` of its word (10_state.md R24). -/
theorem State.setResult_eq_withResult (s : State) (ctx : Context) (st : Status) (j : Option (Fin 8)) (x : BitVec 3) :
    s.setResult ctx st j x = withResult s ctx (resultWord st j x) := rfl

theorem writeCmd_illegal {w : Word} {e : DecodeError} (h : decodeWord w = .error e) (s : State) (ctx : Context) :
    writeCmd s ctx w = .next (withResult s ctx 0x0000FF06) := by
  have hres : resultWord .illegal none 0 = 0x0000FF06 := by decide
  rw [← hres, ← State.setResult_eq_withResult]
  simp [writeCmd, h]

/-- Settles O8: the decoder refuses exactly the illegal words, and a write to CMD asks it. -/
theorem illegalWordWritesOnlyResult : Obligations.IllegalWordWritesOnlyResult := by
  intro s ctx w
  have hcmd : hostAction ctx (.write 0x00 4 w) s = writeCmd s ctx w := busWrite_proper rfl s ctx w
  obtain ⟨herror, hok⟩ := decoderRefusesExactlyIllegalWords w
  refine ⟨fun h => ?_, fun h => ?_⟩
  · obtain ⟨e, he⟩ := herror.mpr h
    rw [hcmd, writeCmd_illegal he]
  · rw [← legalWord_eq_false_iff, Bool.not_eq_false] at h
    obtain ⟨i, hi⟩ := hok.mpr h
    exact ⟨i, hi, hcmd.trans (writeCmd_legal hi s ctx)⟩

/-! ### Failing commands -/

/-- A command writes RESULT alone, or records a fault alone, or succeeds: then RESULT's STATUS is OK and no fault is
recorded (30_encoding.md R76, 60_exceptions.md R160, R161). -/
theorem CommandEffect.result_or_fault_or_ok {i : Instr} {s t : State} {ctx : Context} (h : CommandEffect i s ctx t) :
    (∃ w, t = withResult s ctx w) ∨ (∃ f, t = s.recordFault f) ∨
      (t.faults = s.faults ∧ (t.banks.get ctx).result.toNat % 256 = 0) := by
  have hok (j : Option (Fin 8)) : (resultWord .ok j 0).toNat % 256 = 0 := resultWord_status ..
  cases h with
  | resultOnly => exact Or.inl ⟨_, State.setResult_eq_withResult ..⟩
  | dangling => exact Or.inr (Or.inl ⟨_, rfl⟩)
  | returns k hi hc => subst hc; exact Or.inr (Or.inr ⟨rfl, hok _⟩)
  | _ => exact Or.inr (Or.inr ⟨rfl, by simpa using hok _⟩)

/-- Settles O24: a success records no fault and reports OK, so a fault was recorded alone and a failure wrote RESULT
alone. -/
theorem failingCommandsChangeNothingElse : Obligations.FailingCommandsChangeNothingElse := by
  intro i s t ctx hctx h
  obtain ⟨w, rfl⟩ | ⟨f, rfl⟩ | ⟨hf, hst⟩ := (exec_effect_in hctx h).result_or_fault_or_ok
  · exact ⟨fun hne => absurd rfl hne, fun _ _ => by simp [withResult]⟩
  · obtain ⟨hframe, -⟩ := recordsOnly_recordFault s f
    exact ⟨fun _ => hframe, fun hne => absurd (State.recordFault_banks s f) hne⟩
  · exact ⟨fun hne => absurd hf hne, fun _ hne => absurd hst hne⟩

end Sys2Proof.Machine
end

section
/-! SUPPORT. Proofs of the statements about the registry commands (40_registry.md): what REGISTER, UNREGISTER and QUERY
answer in a context, check by check, and the slots and RESULT words they speak of. -/

namespace Sys2Proof.Machine

open Sys2Proof.Claims

/-! ### Commands in their context -/

/-- A command the context table refuses there writes E_CONTEXT to RESULT, whatever its body (60_exceptions.md R177). -/
theorem exec_notAllowed {i : Instr} {s : State} {ctx : Context} (hctx : s.phase.context? = some ctx)
    (ha : allowedIn i ctx = false) : exec i s = .next (withResult s ctx 0x0000FF07) := by
  obtain ⟨body, hb⟩ : ∃ body, exec i s = command i s body := by cases i <;> exact ⟨_, rfl⟩
  rw [hb, command_next hctx, ha]
  rfl

theorem exec_register_main {s : State} (hctx : s.phase.context? = some .main) :
    exec .register s = .next (withRecord s .main fun h r => registerRecord s .main h r) :=
  command_next hctx _

theorem exec_unregister_main {s : State} (hctx : s.phase.context? = some .main) :
    exec .unregister s = .next (unregisterHandle s .main (s.argHandle .main)) :=
  command_next hctx _

theorem exec_query {s : State} {ctx : Context} (hctx : s.phase.context? = some ctx) :
    exec .query s = .next (withRecord s ctx fun h r => s.setResult ctx .ok (s.slotOf h) (queryExtra r)) :=
  command_next hctx _

theorem withRecord_live {s : State} {ctx : Context} {r : Record} (hr : s.record? (s.argHandle ctx) = some r)
    (body : Word → Record → State) : withRecord s ctx body = body (s.argHandle ctx) r := by
  simp only [withRecord, hr]

/-- A handle operand that is not live is recorded as a fault, and nothing else is written (60_exceptions.md R161). -/
theorem recordsOnly_withRecord {s : State} {ctx : Context} (hl : s.record? (s.argHandle ctx) = none)
    (body : Word → Record → State) :
    recordsOnly s (withRecord s ctx body) (.danglingHandle (s.argHandle ctx)) := by
  simp only [withRecord, hl]
  exact recordsOnly_recordFault ..

/-! ### RESULT words -/

/-- RESULT for a slot is the claims' `resultOf` of its fields (10_state.md R24). -/
theorem resultWord_some (st : Status) (j : Fin 8) :
    resultWord st (some j) 0 = resultOf (statusCode st).toNat j.val 0 := by
  apply BitVec.eq_of_toNat_eq
  have hst := (statusCode st).isLt
  rw [resultWord_toNat, slotCode_some, resultOf, BitVec.toNat_ofNat]
  simp only [BitVec.ofNat_eq_ofNat, BitVec.toNat_ofNat]
  omega

theorem State.setResult_some (s : State) (ctx : Context) (st : Status) (j : Fin 8) :
    s.setResult ctx st (some j) 0 = withResult s ctx (resultOf (statusCode st).toNat j.val 0) := by
  rw [State.setResult_eq_withResult, resultWord_some]

/-- RESULT's SLOT field (10_state.md R24). -/
theorem resultWord_slot (st : Status) (j : Option (Fin 8)) (x : BitVec 3) :
    (resultWord st j x).toNat / 256 % 256 = (slotCode j).toNat := by
  have hst := (statusCode st).isLt
  have hj := (slotCode j).isLt
  rw [resultWord_toNat]
  omega

/-- RESULT's bits 18:16, one by one (10_state.md R24). -/
theorem resultWord_getLsbD_extra (st : Status) (j : Option (Fin 8)) (x : BitVec 3) {i : Nat} (hi : i < 3) :
    (resultWord st j x).getLsbD (16 + i) = x.getLsbD i := by
  have he := congrArg (BitVec.getLsbD · i) (resultWord_extra st j x)
  simpa [hi] using he

/-- QUERY's extra field, bit by bit (40_registry.md R100). -/
theorem queryExtra_bits (r : Record) :
    (queryExtra r).getLsbD 0 = r.busy ∧ (queryExtra r).getLsbD 1 = decide (r.cb ≠ 0) ∧
      (queryExtra r).getLsbD 2 = decide (r.dir = .rx) := by
  have hd : r.dir.bit = decide (r.dir = .rx) := by cases r.dir <;> rfl
  rw [queryExtra, hd]
  generalize r.busy = busy, decide (r.cb ≠ 0) = cbSet, decide (r.dir = .rx) = rx
  revert busy cbSet rx
  decide

/-! ### The slots the commands look for -/

/-- The duplicate reported is the least slot that holds the handle or the channel (40_registry.md R91). -/
theorem State.duplicateOf_eq_some_iff {s : State} {h : Word} {c : Byte} {j : Fin 8} :
    s.duplicateOf h c = some j ↔ holdsEither s h c j ∧ ∀ k < j, ¬ holdsEither s h c k := by
  simp only [State.duplicateOf, State.findSlot_eq_some, holdsEither, Bool.or_eq_true, beq_iff_eq]

theorem State.duplicateOf_eq_none_iff {s : State} {h : Word} {c : Byte} :
    s.duplicateOf h c = none ↔ ∀ j, ¬ holdsEither s h c j := by
  simp only [State.duplicateOf, State.findSlot_eq_none, holdsEither, Bool.or_eq_true, beq_iff_eq]

/-- The slot of a handle is the least that holds it (40_registry.md R100). -/
theorem State.slotOf_eq_some_iff {s : State} {h : Word} {j : Fin 8} :
    s.slotOf h = some j ↔ holdsHandle s h j ∧ ∀ k < j, ¬ holdsHandle s h k := by
  simp only [State.slotOf, State.findSlot_eq_some, holdsHandle, beq_iff_eq]

theorem State.slotOf_eq_none_iff {s : State} {h : Word} : s.slotOf h = none ↔ ∀ j, ¬ holdsHandle s h j := by
  simp only [State.slotOf, State.findSlot_eq_none, holdsHandle, beq_iff_eq]

/-- Where the slots' handles are distinct, the slot that holds a handle is the one found (10_state.md R28 (b)). -/
theorem State.SlotsDistinct.slotOf_eq {s : State} (hd : s.SlotsDistinct) {h : Word} {j : Fin 8}
    (hj : holdsHandle s h j) : s.slotOf h = some j := by
  refine State.slotOf_eq_some_iff.mpr ⟨hj, fun k hk ⟨hkv, hkh⟩ => ?_⟩
  obtain ⟨hjv, hjh⟩ := hj
  obtain ⟨-, hne⟩ := hd k j hk.ne hkv hjv
  exact hne (hkh.trans hjh.symm)

/-- A direction's table is its four numbered slots (10_state.md R26). -/
theorem mem_tableSlots_iff_tableIndex {d : Dir} {j : Fin 8} : j ∈ tableSlots d ↔ ∃ k, tableIndex d k = j := by
  revert j; cases d <;> decide

theorem tableIndex_lt_iff {d : Dir} {k l : Fin 4} : tableIndex d k < tableIndex d l ↔ k < l := by
  cases d <;> simp [tableIndex]

/-- A table is full iff its four numbered slots are valid (40_registry.md R91). -/
theorem State.freeSlot_eq_none_iff_tableIndex {s : State} {d : Dir} :
    s.freeSlot d = none ↔ ∀ k, (s.slot (tableIndex d k)).valid = true := by
  simp [State.freeSlot_eq_none, mem_tableSlots_iff_tableIndex]

/-- The slot REGISTER takes is the least free one of the table (40_registry.md R91). -/
theorem State.freeSlot_eq_tableIndex_iff {s : State} {d : Dir} {k : Fin 4} :
    s.freeSlot d = some (tableIndex d k) ↔
      (s.slot (tableIndex d k)).valid = false ∧ ∀ l < k, (s.slot (tableIndex d l)).valid = true := by
  simp [State.freeSlot_eq_some, mem_tableSlots_iff_tableIndex, tableIndex_lt_iff]

/-! ### REGISTER -/

section Register

variable {s : State} {ctx : Context} {h : Word} {r : Record}

theorem registerRecord_invalidChannel (hc : s.params.nDmaCh ≤ r.chan.toNat) :
    registerRecord s ctx h r = withResult s ctx 0x0000FF02 := by
  have hch : s.isChannel r.chan.toNat = false := by simpa [State.isChannel] using hc
  simp only [registerRecord, hch, Bool.not_false, if_true]
  rfl

theorem registerRecord_duplicate (hc : s.isChannel r.chan.toNat = true) {j : Fin 8}
    (hd : s.duplicateOf h r.chan = some j) : registerRecord s ctx h r = withResult s ctx (resultOf 0x03 j.val 0) := by
  simp only [registerRecord, hc, hd, Bool.not_true, Bool.false_eq_true, if_false]
  exact s.setResult_some ctx .duplicate j

theorem registerRecord_srcEnabled (hc : s.isChannel r.chan.toNat = true) (hd : s.duplicateOf h r.chan = none)
    (he : s.enabled r.chan.toNat = true) : registerRecord s ctx h r = withResult s ctx 0x0000FF04 := by
  simp only [registerRecord, hc, hd, he, Bool.not_true, Bool.false_eq_true, if_false, if_true]
  rfl

theorem registerRecord_capacity (hc : s.isChannel r.chan.toNat = true) (hd : s.duplicateOf h r.chan = none)
    (he : s.enabled r.chan.toNat = false) (hf : s.freeSlot r.dir = none) :
    registerRecord s ctx h r = withResult s ctx 0x0000FF01 := by
  simp only [registerRecord, hc, hd, he, hf, Bool.not_true, Bool.false_eq_true, if_false]
  rfl

theorem registerRecord_ok (hc : s.isChannel r.chan.toNat = true) (hd : s.duplicateOf h r.chan = none)
    (he : s.enabled r.chan.toNat = false) {j : Fin 8} (hf : s.freeSlot r.dir = some j) :
    registerRecord s ctx h r = withResult (withSlot s j { valid := true, handle := h, chan := r.chan }) ctx
      (resultOf 0x00 j.val 0) := by
  simp only [registerRecord, hc, hd, he, hf, Bool.not_true, Bool.false_eq_true, if_false]
  exact State.setResult_some (withSlot s j _) ctx .ok j

end Register

/-- Settles O15: a live handle's record goes through `registerRecord`, whose checks come in R91's order. -/
theorem registerFollowsItsRule : Obligations.RegisterFollowsItsRule := by
  refine ⟨rfl, fun s hp => ?_, fun s i hp => exec_notAllowed (Phase.context_eq_irq.mpr ⟨i, hp⟩) rfl⟩
  have hexec := exec_register_main (Phase.context_eq_main.mpr hp)
  refine ⟨fun hl => ⟨_, hexec, recordsOnly_withRecord hl _⟩, fun r hr => ?_⟩
  rw [hexec, withRecord_live hr]
  refine ⟨fun hc => congrArg _ (registerRecord_invalidChannel hc), fun hlt => ?_⟩
  have hc := State.isChannel_iff.mpr hlt
  refine ⟨fun j hj hmin => ?_, fun hnone => ?_⟩
  · exact congrArg _ (registerRecord_duplicate hc (State.duplicateOf_eq_some_iff.mpr ⟨hj, hmin⟩))
  have hd := State.duplicateOf_eq_none_iff.mpr hnone
  refine ⟨fun he => congrArg _ (registerRecord_srcEnabled hc hd he), fun he => ⟨fun hfull => ?_, fun k hk hmin => ?_⟩⟩
  · exact congrArg _ (registerRecord_capacity hc hd he (State.freeSlot_eq_none_iff_tableIndex.mpr hfull))
  · exact congrArg _ (registerRecord_ok hc hd he (State.freeSlot_eq_tableIndex_iff.mpr ⟨hk, hmin⟩))

/-! ### UNREGISTER -/

section Unregister

variable {s : State} {ctx : Context} {h : Word}

theorem unregisterHandle_absent (hn : s.slotOf h = none) :
    unregisterHandle s ctx h = withResult s ctx 0x0000FF00 := by
  simp only [unregisterHandle, hn]
  rfl

theorem unregisterHandle_srcEnabled {j : Fin 8} (hj : s.slotOf h = some j)
    (he : s.enabled (s.slot j).chan.toNat = true) :
    unregisterHandle s ctx h = withResult s ctx (resultOf 0x04 j.val 0) := by
  simp only [unregisterHandle, hj, he, if_true]
  exact s.setResult_some ctx .srcEnabled j

theorem unregisterHandle_ok {j : Fin 8} (hj : s.slotOf h = some j)
    (he : s.enabled (s.slot j).chan.toNat = false) :
    unregisterHandle s ctx h = withResult (withSlot s j Slot.empty) ctx (resultOf 0x00 j.val 0) := by
  simp only [unregisterHandle, hj, he, Bool.false_eq_true, if_false]
  exact State.setResult_some (withSlot s j _) ctx .ok j

end Unregister

/-- Settles O16: with distinct handles the slot found is the one that holds the handle. -/
theorem unregisterFollowsItsRule : Obligations.UnregisterFollowsItsRule := by
  refine ⟨rfl, fun s hp hdist => ?_, fun s i hp => exec_notAllowed (Phase.context_eq_irq.mpr ⟨i, hp⟩) rfl⟩
  rw [exec_unregister_main (Phase.context_eq_main.mpr hp)]
  refine ⟨fun j hj => ⟨fun he => ?_, fun he => ?_⟩, fun hnone => ?_⟩
  · exact congrArg _ (unregisterHandle_srcEnabled (hdist.slotOf_eq hj) he)
  · exact congrArg _ (unregisterHandle_ok (hdist.slotOf_eq hj) he)
  · exact congrArg _ (unregisterHandle_absent (State.slotOf_eq_none_iff.mpr hnone))

/-! ### QUERY -/

/-- Settles O17: QUERY writes one word to RESULT, whose fields are read off one by one. -/
theorem queryReportsTheRecord : Obligations.QueryReportsTheRecord := by
  refine ⟨rfl, fun s ctx hctx => ⟨fun hl => ⟨_, exec_query hctx, recordsOnly_withRecord hl _⟩, fun r hr => ?_⟩⟩
  have hexec := exec_query hctx
  rw [withRecord_live hr, State.setResult_eq_withResult] at hexec
  obtain ⟨hbusy, hcb, hdir⟩ := queryExtra_bits r
  refine ⟨_, hexec, resultWord_status .., fun j hj hmin => ?_, fun hnone => ?_,
    (resultWord_getLsbD_extra _ _ _ (by decide)).trans hbusy, (resultWord_getLsbD_extra _ _ _ (by decide)).trans hcb,
    (resultWord_getLsbD_extra _ _ _ (by decide)).trans hdir, Nat.div_eq_of_lt (resultWord_lt ..)⟩
  · have hslot : s.slotOf (s.argHandle ctx) = some j := State.slotOf_eq_some_iff.mpr ⟨hj, hmin⟩
    rw [resultWord_slot, hslot, slotCode_some]
  · have hslot : s.slotOf (s.argHandle ctx) = none := State.slotOf_eq_none_iff.mpr hnone
    rw [resultWord_slot, hslot]
    rfl

end Sys2Proof.Machine
end

section
/-! SUPPORT. Proofs of the statements about NOP, INSTALL and the sources (41_install_and_sources.md): what writing one
bit of a channel mask does, what each of these commands answers in a context, what a step can do to INSTALLED. -/

namespace Sys2Proof.Machine

open Sys2Proof.Claims

/-! ### Words of the commands with a CHAN operand -/

/-- `(CHAN << 8) | OP` spells the command with that operand and opcode (30_encoding.md R73, R78). -/
theorem decodeWord_ofNat_chan_op (i : Instr) :
    decodeWord (BitVec.ofNat 32 ((chanOperand i).toNat * 256 + (opcode i).toNat)) = .ok i := by
  obtain ⟨hword, -⟩ := decodeOfEncodeIsIdentity i []
  rwa [← encode_toNat, BitVec.ofNat_toNat, BitVec.setWidth_eq]

/-! ### One bit of a channel mask -/

theorem getLsbD_writeBit_true {c : Nat} (hc : c < 32) (m : Word) (d : Nat) :
    (writeBit m c true).getLsbD d = (m.getLsbD d || d == c) := by
  rw [getLsbD_writeBit]
  by_cases h : d = c <;> simp [h, hc]

theorem getLsbD_writeBit_false {c : Nat} (hc : c < 32) (m : Word) (d : Nat) :
    (writeBit m c false).getLsbD d = (m.getLsbD d && d != c) := by
  rw [getLsbD_writeBit]
  by_cases h : d = c <;> simp [h, hc]

/-- Writing the value a bit already has changes nothing. -/
theorem writeBit_self {m : Word} {c : Nat} {v : Bool} (h : m.getLsbD c = v) : writeBit m c v = m := by
  refine BitVec.eq_of_getLsbD_eq fun d _ => ?_
  rw [getLsbD_writeBit]
  split_ifs with hd
  · obtain ⟨rfl, -⟩ := hd
    exact h.symm
  · rfl

theorem State.setEnabled_self {s : State} {c : Nat} {v : Bool} (h : s.enabled c = v) : s.setEnabled c v = s :=
  congrArg s.withEn (writeBit_self h)

theorem State.setPending_self {s : State} {c : Nat} {v : Bool} (h : s.pending c = v) : s.setPending c v = s :=
  congrArg s.withPend (writeBit_self h)

theorem State.withInstalled_self {s : State} {v : Bool} (h : s.installed = v) : s.withInstalled v = s :=
  congrArg s.withInstalled h.symm

/-- An existing channel has its bit in a mask (00_scope.md R8). -/
theorem Params.lt_32_of_wellFormed {p : Params} (hp : p.wellFormed = true) {c : Nat} (hc : c < p.nDmaCh) :
    c < 32 := by
  simp only [Params.wellFormed, Bool.and_eq_true, decide_eq_true_eq] at hp
  omega

/-- A slot whose source is disabled is not served (41_install_and_sources.md R114). -/
theorem State.isHit_of_enabled_eq_false {s : State} {j : Fin 8} (h : s.enabled (s.slot j).chan.toNat = false) :
    s.isHit j = false := by
  simp only [State.isHit, h, Bool.and_false]

/-! ### The commands in their context -/

section InContext

variable {s : State} {ctx : Context}

theorem withChannel_existing {c : Byte} (hc : c.toNat < s.params.nDmaCh) (body : Nat → State) :
    withChannel s ctx c body = body c.toNat :=
  if_pos (State.isChannel_iff.mpr hc)

theorem withChannel_missing {c : Byte} (hc : s.params.nDmaCh ≤ c.toNat) (body : Nat → State) :
    withChannel s ctx c body = withResult s ctx 0x0000FF02 :=
  if_neg fun h => hc.not_gt (State.isChannel_iff.mp h)

theorem exec_nop (hctx : s.phase.context? = some ctx) : exec .nop s = .next (withResult s ctx 0x0000FF00) :=
  command_next hctx _

theorem exec_install (hctx : s.phase.context? = some ctx) :
    exec .install s = .next (withResult (s.withInstalled true) ctx 0x0000FF00) :=
  command_next hctx _

theorem exec_srcEnable (hctx : s.phase.context? = some ctx) (c : Byte) :
    exec (.srcEnable c) s =
      .next (withChannel s ctx c fun n => withResult (s.setEnabled n true) ctx 0x0000FF00) :=
  command_next hctx _

theorem exec_srcDisable (hctx : s.phase.context? = some ctx) (c : Byte) :
    exec (.srcDisable c) s =
      .next (withChannel s ctx c fun n => withResult (s.setEnabled n false) ctx 0x0000FF00) :=
  command_next hctx _

theorem exec_srcAck (hctx : s.phase.context? = some ctx) (c : Byte) :
    exec (.srcAck c) s =
      .next (withChannel s ctx c fun n => withResult (s.setPending n false) ctx 0x0000FF00) :=
  command_next hctx _

end InContext

/-- Settles O9: no operand and no check, only RESULT. -/
theorem nopWritesOnlyResult : Obligations.NopWritesOnlyResult := ⟨rfl, fun _ _ => exec_nop⟩

/-! ### INSTALLED -/

/-- INSTALL alone writes INSTALLED, and writes 1 (41_install_and_sources.md R111). -/
theorem CommandEffect.installed_of_installed {i : Instr} {s t : State} {ctx : Context} (h : CommandEffect i s ctx t)
    (hi : s.installed = true) : t.installed = true := by
  cases h with
  | installs => rfl
  | dangling => exact (State.recordFault_installed ..).trans hi
  | _ => exact hi

theorem exec_installed {i : Instr} {s t : State} (h : exec i s = .next t) (hi : s.installed = true) :
    t.installed = true := by
  obtain ⟨_, -, he⟩ := exec_effect h
  exact he.installed_of_installed hi

theorem DispatchEffect.installed_eq {s t : State} (h : DispatchEffect s t) : t.installed = s.installed := by
  cases h with
  | dangles | exitsOrphan => exact State.recordFault_installed ..
  | _ => rfl

/-- A step keeps INSTALLED 1, unless it is a system reset (41_install_and_sources.md R111). -/
theorem agentStep_installed_or_reset {a : Agent} {s t : State} (h : agentStep a s = .next t)
    (hi : s.installed = true) : t.installed = true ∨ (a = .platform ∧ t.installed = false) := by
  cases agentStep_effect h with
  | acts ctx act rest _ ha hc ht he =>
    obtain ⟨v, i, -, -, hx⟩ | hs := he.command_or_sameControl
    · exact Or.inl (exec_installed hx hi)
    · exact Or.inl (hs.installed.trans hi)
  | dispatches _ ha he => exact Or.inl (he.installed_eq.trans hi)
  | resets ha => exact Or.inr ⟨ha, rfl⟩
  | _ => exact Or.inl hi

/-- Settles O10: INSTALL writes 1, and of all effects of a step only a reset writes 0. -/
theorem installSetsInstalledForGood : Obligations.InstallSetsInstalledForGood := by
  refine ⟨rfl, fun s ctx hctx => ⟨exec_install hctx, fun hi => ?_⟩, fun i s t => exec_installed,
    fun a s t => agentStep_installed_or_reset⟩
  rw [exec_install hctx, State.withInstalled_self hi]

/-! ### The sources -/

/-- Settles O14: the CHAN operand is checked before the command's effect. -/
theorem invalidChannelChangesOnlyResult : Obligations.InvalidChannelChangesOnlyResult := by
  intro s ctx c hctx hc
  refine ⟨?_, ?_, ?_⟩
  · rw [exec_srcEnable hctx, withChannel_missing hc]
  · rw [exec_srcDisable hctx, withChannel_missing hc]
  · rw [exec_srcAck hctx, withChannel_missing hc]

/-- Settles O11: the enable bit is written to 1; with the pending bit kept, the channel itself then drives the line. -/
theorem srcEnableSetsEnableBit : Obligations.SrcEnableSetsEnableBit := by
  intro s ctx c hctx hwf
  have hexec := exec_srcEnable hctx c
  refine ⟨decodeWord_ofNat_chan_op (.srcEnable c), fun hc => by rw [hexec, withChannel_missing hc], fun hc => ?_⟩
  rw [withChannel_existing hc] at hexec
  have hbits (d : Nat) : (s.setEnabled c.toNat true).enabled d = (s.enabled d || d == c.toNat) :=
    getLsbD_writeBit_true (Params.lt_32_of_wellFormed hwf hc) s.en d
  refine ⟨_, hexec, rfl, hbits, fun he => by rw [State.setEnabled_self he], fun hp hi => ?_⟩
  have hen : (s.setEnabled c.toNat true).enabled c.toNat = true := by simp [hbits]
  obtain ⟨hline, -⟩ := lineIsInstalledAndSomeSource (withResult (s.setEnabled c.toNat true) ctx 0x0000FF00)
  exact hline.mpr ⟨hi, c.toNat, hc, hp, hen⟩

/-- Settles O12: the enable bit is written to 0, and a hit needs it. -/
theorem srcDisableClearsEnableBit : Obligations.SrcDisableClearsEnableBit := by
  intro s ctx c hctx hwf
  have hexec := exec_srcDisable hctx c
  refine ⟨decodeWord_ofNat_chan_op (.srcDisable c), fun hc => by rw [hexec, withChannel_missing hc], fun hc => ?_⟩
  rw [withChannel_existing hc] at hexec
  have hbits (d : Nat) : (s.setEnabled c.toNat false).enabled d = (s.enabled d && d != c.toNat) :=
    getLsbD_writeBit_false (Params.lt_32_of_wellFormed hwf hc) s.en d
  have hoff : (s.setEnabled c.toNat false).enabled c.toNat = false := by simp [hbits]
  refine ⟨_, hexec, rfl, hbits, fun j hj => State.isHit_of_enabled_eq_false ?_⟩
  rw [hj]
  exact hoff

/-- Settles O13: the pending bit is written to 0, as the Dispatcher's acknowledgement does. -/
theorem srcAckClearsPendingBit : Obligations.SrcAckClearsPendingBit := by
  intro s ctx c hctx hwf
  have hexec := exec_srcAck hctx c
  refine ⟨decodeWord_ofNat_chan_op (.srcAck c), fun hc => by rw [hexec, withChannel_missing hc], fun hc => ?_⟩
  rw [withChannel_existing hc] at hexec
  exact ⟨_, hexec, rfl, getLsbD_writeBit_false (Params.lt_32_of_wellFormed hwf hc) s.pend,
    fun hp => by rw [State.setPending_self hp]⟩

end Sys2Proof.Machine
end

section
/-! SUPPORT. Proofs of the statements about the commands that write a record (42_instance.md): what SET_CALLBACK, BUSY_SET
and BUSY_CLEAR answer in a context, and what a step can do to the busy flag of a record. -/

namespace Sys2Proof.Machine

open Sys2Proof.Claims

/-! ### The commands in their context -/

section InContext

variable {s : State} {ctx : Context}

theorem exec_setCallback (hctx : s.phase.context? = some ctx) :
    exec .setCallback s = .next (withRecord s ctx fun h _ =>
      withResult (s.updateRecord h fun r => { r with cb := s.argFn ctx, ctx := s.argCtx ctx }) ctx 0x0000FF00) :=
  command_next hctx _

theorem exec_busySet (hctx : s.phase.context? = some ctx) :
    exec .busySet s = .next (withRecord s ctx fun h r =>
      if r.busy then withResult s ctx 0x0000FF05 else withResult (s.setBusy h true) ctx 0x0000FF00) :=
  command_next hctx _

theorem exec_busyClear (hctx : s.phase.context? = some ctx) :
    exec .busyClear s = .next (withRecord s ctx fun h _ => withResult (s.setBusy h false) ctx 0x0000FF00) :=
  command_next hctx _

/-- A command that writes a live record and then RESULT changes the store and RESULT alone, and of the records only that
one (20_memory.md R56). -/
theorem exec_updateRecord {i : Instr} {h w : Word} {r : Record} {f : Record → Record} (hr : s.record? h = some r)
    (he : exec i s = .next (withResult (s.updateRecord h f) ctx w)) :
    ∃ t, exec i s = .next t ∧ t = withResult { s with store := t.store } ctx w ∧ t.record? h = some (f r) ∧
      ∀ k, k ≠ h → t.record? k = s.record? k := by
  have hrec (k : Word) : (withResult (s.updateRecord h f) ctx w).record? k =
      if h = k then (s.record? k).map f else s.record? k := State.record?_updateRecord s h k f
  refine ⟨_, he, rfl, ?_, fun k hk => ?_⟩
  · rw [hrec, if_pos rfl, hr, Option.map_some]
  · rw [hrec, if_neg hk.symm]

end InContext

/-- Settles O18: function and context are one write to the record. -/
theorem setCallbackWritesFunctionAndContext : Obligations.SetCallbackWritesFunctionAndContext := by
  refine ⟨rfl, fun s ctx hctx => ⟨fun hl => ⟨_, exec_setCallback hctx, recordsOnly_withRecord hl _⟩, fun r hr => ?_⟩⟩
  have hexec := exec_setCallback hctx
  rw [withRecord_live hr] at hexec
  exact exec_updateRecord hr hexec

/-- Settles O19: the record's own busy flag alone decides between E_BUSY and the write. -/
theorem busySetRejectsStartWhileBusy : Obligations.BusySetRejectsStartWhileBusy := by
  refine ⟨rfl, fun s ctx hctx => ⟨fun hl => ⟨_, exec_busySet hctx, recordsOnly_withRecord hl _⟩, fun r hr => ?_⟩⟩
  have hexec := exec_busySet hctx
  rw [withRecord_live hr] at hexec
  refine ⟨fun hb => by rw [hexec, if_pos hb], fun hb => ?_⟩
  rw [if_neg (by simp [hb])] at hexec
  exact exec_updateRecord hr hexec

/-- Settles O20: one write to the record, which reads no flag of it. -/
theorem busyClearClearsBusy : Obligations.BusyClearClearsBusy := by
  refine ⟨rfl, fun s ctx hctx => ⟨fun hl => ⟨_, exec_busyClear hctx, recordsOnly_withRecord hl _⟩, fun r hr => ?_⟩⟩
  have hexec := exec_busyClear hctx
  rw [withRecord_live hr] at hexec
  exact exec_updateRecord hr hexec

/-! ### Who writes a busy flag -/

/-- What a step can do to the busy flag of record `h`, `b` before it and `b'` after it (42_instance.md R139). -/
inductive BusyWrite (s : State) (h : Word) (b b' : Bool) : Prop where
  | kept (hb : b' = b)
  | set (ctx : Context) (hi : issues s ctx .busySet) (hh : s.argHandle ctx = h) (hb : b' = true)
  | cleared (ctx : Context) (hi : issues s ctx .busyClear) (hh : s.argHandle ctx = h) (hb : b' = false)
  | served (k : Fin 8) (ha : s.nextAgent = .dispatcher) (hp : s.phase = .scan k.castSucc) (hk : hit s k)
      (hh : (s.slot k).handle = h) (hb : b' = false)

/-- A record whose store entry no write reached has its busy flag as before. -/
theorem BusyWrite.of_record_eq {s t : State} {h : Word} {r q : Record} (he : t.record? h = s.record? h)
    (hr : s.record? h = some r) (hq : t.record? h = some q) : BusyWrite s h r.busy q.busy := by
  obtain rfl : q = r := Option.some.inj (hq.symm.trans (he.trans hr))
  exact .kept rfl

/-- A record live before and after a write to record `k` is the same, or is record `k`. -/
theorem State.record_of_updateRecord {s t : State} {k h : Word} {f : Record → Record} {r q : Record}
    (hr : s.record? h = some r) (hq : t.record? h = some q) (ht : t.store = (s.updateRecord k f).store) :
    q = r ∨ (k = h ∧ q = f r) := by
  rw [State.record?_congr ht, State.record?_updateRecord, hr] at hq
  split at hq
  · rename_i hk
    exact Or.inr ⟨hk, (Option.some.inj hq).symm⟩
  · exact Or.inl (Option.some.inj hq).symm

section Writers

variable {s t : State} {h : Word} {r q : Record}

/-- Of the commands BUSY_SET and BUSY_CLEAR write a busy flag, their handle operand's (42_instance.md R134, R138). -/
theorem CommandEffect.busyWrite {i : Instr} {ctx : Context} (he : CommandEffect i (taken s ctx) ctx t)
    (hi : issues s ctx i) (hr : s.record? h = some r) (hq : t.record? h = some q) :
    BusyWrite s h r.busy q.busy := by
  cases he with
  | setsCallback =>
    obtain rfl | ⟨-, rfl⟩ := State.record_of_updateRecord (s := taken s ctx) hr hq rfl
    · exact .kept rfl
    · exact .kept rfl
  | setsBusy _ hset =>
    subst hset
    obtain rfl | ⟨hh, rfl⟩ := State.record_of_updateRecord (s := taken s ctx) hr hq rfl
    · exact .kept rfl
    · exact .set ctx hi hh rfl
  | clearsBusy _ hclear =>
    subst hclear
    obtain rfl | ⟨hh, rfl⟩ := State.record_of_updateRecord (s := taken s ctx) hr hq rfl
    · exact .kept rfl
    · exact .cleared ctx hi hh rfl
  | dangling => exact .of_record_eq (congrFun (State.record?_congr (State.recordFault_store (taken s ctx) _)) h) hr hq
  | _ => exact .of_record_eq rfl hr hq

/-- Of the host actions only commands write the flag of a record that stays live: the host itself creates records and
destroys them (10_state.md R36). -/
theorem HostEffect.busyWrite {ctx : Context} {a : HostAction} (he : HostEffect ctx a (taken s ctx) t)
    (ha : acts s ctx a) (hw : Store.wf s.store) (hr : s.record? h = some r) (hq : t.record? h = some q) :
    BusyWrite s h r.busy q.busy := by
  cases he with
  | commands v i _ hwr hi hx =>
    subst hwr
    obtain ⟨-, hctx, -⟩ := id ha
    exact (exec_effect_in (s := taken s ctx) hctx hx).busyWrite ⟨v, ha, hi⟩ hr hq
  | creates k d c _ hz hn =>
    have hk : k ≠ h := fun e => by subst e; cases hn.symm.trans hr
    exact .of_record_eq ((State.record?_withStore_insert (taken s ctx) hz _ h).trans (if_neg hk)) hr hq
  | destroys k =>
    have herase := State.record?_withStore_erase (s := taken s ctx) hw k h
    have hk : k ≠ h := fun e => by rw [if_pos e, hq] at herase; cases herase
    exact .of_record_eq (herase.trans (if_neg hk)) hr hq
  | dangles | danglingRead | badRead | badWrite | rearms =>
    exact .of_record_eq (congrFun (State.record?_congr (by simp [State.busFault, taken])) h) hr hq
  | _ => exact .of_record_eq rfl hr hq

/-- The Dispatcher clears the busy flag of the slot it serves, with a callback or without (60_exceptions.md R165). -/
theorem DispatchEffect.busyWrite (he : DispatchEffect s.popSched t) (ha : s.nextAgent = .dispatcher)
    (hr : s.record? h = some r) (hq : t.record? h = some q) : BusyWrite s h r.busy q.busy := by
  cases he with
  | serves k _ hp hh | calls k _ hp hh =>
    obtain rfl | ⟨hk, rfl⟩ := State.record_of_updateRecord (s := s.popSched) hr hq rfl
    · exact .kept rfl
    · exact .served k ha hp (State.isHit_iff_hit.mp hh) hk rfl
  | dangles | exitsOrphan => exact .of_record_eq (congrFun (State.record?_congr (by simp)) h) hr hq
  | _ => exact .of_record_eq rfl hr hq

/-- A record live before and after a step keeps its busy flag, or one of the flag's three writers wrote it. -/
theorem step_busyWrite (hs : step s = .next t) (hw : Store.wf s.store) (hr : s.record? h = some r)
    (hq : t.record? h = some q) : BusyWrite s h r.busy q.busy := by
  cases step_effect hs with
  | acts ctx a rest _ ha hc ht he => exact he.busyWrite (acts_of_todo ha hc ht) hw hr hq
  | dispatches _ ha he => exact he.busyWrite ha hr hq
  | resets => simp [platformReset, State.record?, State.reset, Store.find?] at hq
  | _ => exact .of_record_eq rfl hr hq

end Writers

/-- Settles O47: each writer writes one value, so a change of the flag tells which wrote it. -/
theorem busyFlagHasThreeWriters : Obligations.BusyFlagHasThreeWriters := by
  intro s t h r q hw hs hr hq
  cases step_busyWrite hs hw hr hq with
  | kept hb => exact ⟨fun h0 h1 => by simp [hb, h0] at h1, fun h1 h0 => by simp [hb, h1] at h0⟩
  | set ctx hi hh hb => exact ⟨fun _ _ => ⟨ctx, hi, hh⟩, fun _ h0 => by simp [hb] at h0⟩
  | cleared ctx hi hh hb => exact ⟨fun _ h1 => by simp [hb] at h1, fun _ _ => Or.inl ⟨ctx, hi, hh⟩⟩
  | served k ha hp hk hh hb => exact ⟨fun _ h1 => by simp [hb] at h1, fun _ _ => Or.inr ⟨ha, k, hp, hk, hh⟩⟩

end Sys2Proof.Machine
end

section
/-! SUPPORT. Proofs of the statements about CB_RETURN (43_callback_return.md): what the return from a callback writes, and
what the command answers in the phase of a callback. -/

namespace Sys2Proof.Machine

open Sys2Proof.Claims

/-- The slot that RESULT reports is the scan index itself, since the scan visits the slots in order (10_state.md R24). -/
theorem State.returnFromCallback_eq_withResult (s : State) (i : Fin 8) :
    s.returnFromCallback i =
      withResult { s with curFn := 0, curCtx := 0, curHandle := 0, phase := .scan i.succ } .irq
        (resultOf 0x00 i.val 0) := by
  have hword : resultWord .ok (some Config.scanOrder[i]) 0 = resultOf 0x00 i.val 0 := by
    rw [scanOrder_getElem]
    exact resultWord_some .ok i
  rw [← hword]
  rfl

/-- In a callback the context is IRQ, which may issue CB_RETURN (60_exceptions.md R177). -/
theorem exec_cbReturn_inCallback {s : State} {i : Fin 8} (hp : s.phase = .inCallback i) :
    exec .cbReturn s = .next (s.returnFromCallback i) := by
  have hctx : s.phase.context? = some .irq := Phase.context_eq_irq.mpr ⟨i, hp⟩
  refine (command_next hctx _).trans ?_
  simp [allowedIn, hp]

/-- Settles O21: the word by evaluation, the return by what it writes, and MAIN by the context table. -/
theorem cbReturnResumesTheScan : Obligations.CbReturnResumesTheScan := by
  refine ⟨rfl, fun s i hp => ?_, fun s hp => exec_notAllowed (Phase.context_eq_main.mpr hp) rfl⟩
  exact ⟨_, exec_cbReturn_inCallback hp, State.returnFromCallback_eq_withResult s i, Phase.context_scan i.succ⟩

end Sys2Proof.Machine
end

section
/-! SUPPORT. Proofs of the statements about interrupts and dispatch (60_exceptions.md): the context table, the scan and the
exit step, a dispatch without callbacks, and `dma_abort`. -/

namespace Sys2Proof.Machine

open Sys2Proof.Claims

/-! ### The context table -/

/-- The rows of the context table that refuse are the premises' (60_exceptions.md R177). -/
theorem allowedIn_of_ne {i : Instr} {ctx : Context} (hirq : ctx = .irq → i ≠ .register ∧ i ≠ .unregister)
    (hmain : ctx = .main → i ≠ .cbReturn) : allowedIn i ctx = true := by
  cases ctx with
  | main =>
    cases i with
    | cbReturn => exact absurd rfl (hmain rfl)
    | _ => rfl
  | irq =>
    obtain ⟨hreg, hunreg⟩ := hirq rfl
    cases i with
    | register => exact absurd rfl hreg
    | unregister => exact absurd rfl hunreg
    | _ => rfl

/-- In a host context every command answers a next state (10_state.md R22). -/
theorem exec_completes {s : State} {ctx : Context} (hctx : s.phase.context? = some ctx) (i : Instr) :
    ∃ t, exec i s = .next t := by
  cases i <;> exact command_completes hctx _

/-- The codes of the statuses differ (60_exceptions.md R160). -/
theorem statusCode_ne_context {st : Status} (h : st ≠ .context) : (statusCode st).toNat ≠ 0x07 := by
  cases st with
  | context => exact absurd rfl h
  | _ => decide

/-- A command the context table allows does not report E_CONTEXT (60_exceptions.md R177). -/
theorem CommandEffect.status_ne_context {i : Instr} {s t : State} {ctx : Context} (h : CommandEffect i s ctx t)
    (ha : allowedIn i ctx = true) :
    t.banks = s.banks ∨ (t.banks.get ctx).result.toNat % 256 ≠ 0x07 := by
  have hword {st : Status} (hst : st ≠ .context) (j : Option (Fin 8)) (x : BitVec 3) :
      (resultWord st j x).toNat % 256 ≠ 0x07 := by
    rw [resultWord_status]
    exact statusCode_ne_context hst
  cases h with
  | resultOnly st j x hst =>
    have hne : st ≠ .context := fun e => by simp [hst e] at ha
    exact Or.inr (by simpa using hword hne j x)
  | dangling => exact Or.inl (State.recordFault_banks ..)
  | returns k hi hc => subst hc; exact Or.inr (hword (by decide) _ _)
  | _ => exact Or.inr (by simpa using hword (st := .ok) (by decide) _ _)

/-- Settles O23: the table's two refusals, the effects of the commands it allows, and the window, which asks no context. -/
theorem contextTableIsObeyed : Obligations.ContextTableIsObeyed := by
  refine ⟨fun s k hp => ?_, fun s hp => exec_notAllowed (Phase.context_eq_main.mpr hp) rfl,
    fun i s ctx hctx hirq hmain => ?_, fun s ctx off v ho => ⟨?_, fun harg => ?_⟩⟩
  · have hctx := Phase.context_eq_irq.mpr ⟨k, hp⟩
    exact ⟨exec_notAllowed hctx rfl, exec_notAllowed hctx rfl⟩
  · obtain ⟨t, ht⟩ := exec_completes hctx i
    exact ⟨t, ht, (exec_effect_in hctx ht).status_ne_context (allowedIn_of_ne hirq hmain)⟩
  · exact ⟨_, congrArg Host.Outcome.next (busRead_proper ho s ctx)⟩
  · obtain ⟨-, hwrite, -⟩ := accessSideEffects
    obtain ⟨hhandle, hfn, hctx⟩ := hwrite s ctx v
    obtain rfl | rfl | rfl := harg
    · exact ⟨_, hhandle, congrArg Bank.argHandle (Banked.get_set_same ..)⟩
    · exact ⟨_, hfn, congrArg Bank.argFn (Banked.get_set_same ..)⟩
    · exact ⟨_, hctx, congrArg Bank.argCtx (Banked.get_set_same ..)⟩

/-! ### The scan step -/

section Scan

variable {s : State} {k : Fin 8}

/-- In `Scan(k)` with `k ≤ 7` the Dispatcher's step is the scan step at `k` (60_exceptions.md R165). -/
theorem dispatcherStep_scan (hp : s.phase = .scan k.castSucc) : dispatcherStep s = scanStep k s := by
  simp [dispatcherStep, hp]

theorem scanStep_miss (hh : ¬ hit s k) : scanStep k s = s.withPhase (.scan k.succ) := by
  rw [← State.isHit_iff_hit] at hh
  simp only [scanStep, scanSlot_eq, if_neg hh]

theorem scanStep_dangling (hh : hit s k) (hr : s.record? (s.slot k).handle = none) :
    scanStep k s = (s.withPhase (.scan k.succ)).recordFault (.danglingHandle (s.slot k).handle) := by
  simp only [scanStep, scanSlot_eq, if_pos (State.isHit_iff_hit.mpr hh), hr, State.recordFault_eq]
  rfl

theorem scanStep_serve {r : Record} (hh : hit s k) (hr : s.record? (s.slot k).handle = some r) (hcb : r.cb = 0) :
    scanStep k s = (s.serve k).withPhase (.scan k.succ) := by
  simp only [scanStep, scanSlot_eq, if_pos (State.isHit_iff_hit.mpr hh), hr, hcb, ne_eq, not_true_eq_false, if_false]

theorem scanStep_call {r : Record} (hh : hit s k) (hr : s.record? (s.slot k).handle = some r) (hcb : r.cb ≠ 0) :
    scanStep k s = (s.serve k).enterCallback k r.cb r.ctx (s.slot k).handle := by
  simp only [scanStep, scanSlot_eq, if_pos (State.isHit_iff_hit.mpr hh), hr, if_pos hcb]

/-- A pending channel has its bit in the mask. -/
theorem State.lt_32_of_pending {c : Nat} (h : s.pending c = true) : c < 32 := BitVec.lt_of_getLsbD h

/-- Serving a hit slot clears its channel's pending bit alone (60_exceptions.md R165). -/
theorem State.pending_serve (hh : hit s k) (d : Nat) :
    (s.serve k).pending d = (s.pending d && d != (s.slot k).chan.toNat) := by
  obtain ⟨-, hpend, -⟩ := hh
  exact getLsbD_writeBit_false (State.lt_32_of_pending hpend) s.pend d

/-- Serving a slot clears its record's busy flag alone (60_exceptions.md R165). -/
theorem State.record?_serve (s : State) (k : Fin 8) (h : Word) :
    (s.serve k).record? h =
      if (s.slot k).handle = h then (s.record? h).map (fun r => { r with busy := false }) else s.record? h :=
  State.record?_setBusy ..

theorem State.record?_serve_self {r : Record} (hr : s.record? (s.slot k).handle = some r) :
    (s.serve k).record? (s.slot k).handle = some { r with busy := false } := by
  rw [State.record?_serve, if_pos rfl, hr, Option.map_some]

theorem State.record?_serve_other {h : Word} (hne : h ≠ (s.slot k).handle) :
    (s.serve k).record? h = s.record? h := by
  rw [State.record?_serve, if_neg hne.symm]

end Scan

/-- Settles O36: the scan step's branches; both kinds of hits serve the slot. -/
theorem scanStepFollowsItsRule : Obligations.ScanStepFollowsItsRule := by
  intro s k hp
  have hstep : agentStep .dispatcher s = .next (scanStep k s) := congrArg _ (dispatcherStep_scan hp)
  rw [hstep]
  refine ⟨fun hh => congrArg _ (scanStep_miss hh), fun hh hr => ⟨_, rfl, ?_⟩, fun r hh hr => ⟨_, rfl, ?_⟩⟩
  · rw [scanStep_dangling hh hr]
    exact recordsOnly_recordFault (s.withPhase _) _
  · by_cases hcb : r.cb = 0
    · rw [scanStep_serve hh hr hcb]
      exact ⟨State.pending_serve hh, State.record?_serve_self hr, fun h => State.record?_serve_other,
        fun _ => rfl, fun hne => absurd hcb hne⟩
    · rw [scanStep_call hh hr hcb]
      exact ⟨State.pending_serve hh, State.record?_serve_self hr, fun h => State.record?_serve_other,
        fun he => absurd he hcb, fun _ => rfl⟩

/-! ### The exit step -/

section Exit

variable {s : State}

/-- The search for an orphan asks what `orphan` says, of the existing channels (60_exceptions.md R168). -/
theorem orphan_iff {c : Nat} :
    orphan s c ↔ c < s.params.nDmaCh ∧ (s.pending c && s.enabled c && !s.channelHeld c) = true := by
  simp [orphan, ← Bool.not_eq_true, State.channelHeld_iff, and_assoc]

/-- The orphan found is the least one (60_exceptions.md R168). -/
theorem State.orphan?_eq_some {c : Nat} (hc : orphan s c) (hmin : ∀ d < c, ¬ orphan s d) : s.orphan? = some c := by
  obtain ⟨hlt, htest⟩ := orphan_iff.mp hc
  refine List.find?_range_eq_some.mpr ⟨htest, List.mem_range.mpr hlt, fun d hd => ?_⟩
  rw [Bool.not_eq_true', ← Bool.not_eq_true]
  exact fun h => hmin d hd (orphan_iff.mpr ⟨hd.trans hlt, h⟩)

theorem State.orphan?_eq_none (h : ∀ c, ¬ orphan s c) : s.orphan? = none :=
  List.find?_range_eq_none.mpr fun c hc => by
    rw [Bool.not_eq_true', ← Bool.not_eq_true]
    exact fun ht => h c (orphan_iff.mpr ⟨hc, ht⟩)

/-- In `Scan(8)` the Dispatcher's step is the exit step (60_exceptions.md R168). -/
theorem dispatcherStep_exit (hp : s.phase = .scan (Fin.last 8)) : dispatcherStep s = s.exitDispatch := by
  simp [dispatcherStep, hp]

theorem State.exitDispatch_orphan {c : Nat} (hc : s.orphan? = some c) (hi : s.installed = true) :
    s.exitDispatch = (s.withPhase .idle).recordFault (.orphanSource c) := by
  simp only [State.exitDispatch, hc, hi, if_true, State.recordFault_eq]
  rfl

theorem State.exitDispatch_silent (h : s.installed = false ∨ s.orphan? = none) :
    s.exitDispatch = s.withPhase .idle := by
  obtain hi | hn := h
  · cases ho : s.orphan? <;> simp [State.exitDispatch, ho, hi]
  · simp [State.exitDispatch, hn]

/-- The exit step writes the phase and the fault set alone (60_exceptions.md R168). -/
theorem State.exitDispatch_frame (s : State) :
    s.exitDispatch = { s with phase := .idle, faults := s.exitDispatch.faults } := by
  obtain hi | hi := Bool.eq_false_or_eq_true s.installed
  · cases ho : s.orphan? with
    | none => rw [State.exitDispatch_silent (Or.inr ho)]; rfl
    | some c => rw [State.exitDispatch_orphan ho hi, State.recordFault_eq]; rfl
  · rw [State.exitDispatch_silent (Or.inl hi)]; rfl

end Exit

/-- Settles O37: the search over the channels in rising order finds the least orphan, or none. -/
theorem exitStepRecordsTheOrphan : Obligations.ExitStepRecordsTheOrphan := by
  intro s hp
  have hstep : agentStep .dispatcher s = .next s.exitDispatch := congrArg _ (dispatcherStep_exit hp)
  rw [hstep]
  refine ⟨fun c hi hc hmin => ⟨_, rfl, ?_⟩, fun h => ?_⟩
  · rw [State.exitDispatch_orphan (State.orphan?_eq_some hc hmin) hi]
    exact recordsOnly_recordFault (s.withPhase .idle) _
  · exact congrArg _ (State.exitDispatch_silent (h.imp id State.orphan?_eq_none))

/-! ### A dispatch without callbacks -/

/-- The Dispatcher's turn where the schedule names it: the entry is taken off and the Dispatcher steps (log entry 1). -/
def dispatcherTurn (s : State) : State := dispatcherStep s.popSched

theorem DispatchEffect.sched_eq {s t : State} (h : DispatchEffect s t) : t.sched = s.sched := by
  cases h <;> simp

theorem dispatcherTurn_sched (s : State) : (dispatcherTurn s).sched = s.sched.tail :=
  (dispatcherStep_effect s.popSched).sched_eq

/-- A schedule of `n` Dispatcher entries is `n` turns of the Dispatcher, none of which stops. -/
theorem run_eq_dispatcherTurn_iterate (n : Nat) (s : State) (h : s.sched = List.replicate n .dispatcher) :
    Host.Core.run Sys2Proof.core n s = .next (dispatcherTurn^[n] s) := by
  induction n generalizing s with
  | zero => rfl
  | succ n ih =>
    have hnext : s.nextAgent = .dispatcher := by simp only [State.nextAgent, h, List.replicate_succ]
    have hstep : Sys2Proof.core.step s = .next (dispatcherTurn s) := step_dispatcher hnext
    have hsched : (dispatcherTurn s).sched = List.replicate n .dispatcher := by
      rw [dispatcherTurn_sched, h, List.replicate_succ, List.tail_cons]
    simp only [Host.Core.run, hstep, Function.iterate_succ_apply]
    exact ih _ hsched

/-- The exit step as a turn (60_exceptions.md R168). -/
theorem dispatcherTurn_exit {s : State} (hp : s.phase = .scan (Fin.last 8)) :
    dispatcherTurn s = { s.popSched with phase := .idle, faults := (dispatcherTurn s).faults } := by
  rw [dispatcherTurn, dispatcherStep_exit (s := s.popSched) hp]
  exact s.popSched.exitDispatch_frame

/-- `t` is where a dispatch from `s` without callbacks stands in `Scan(i)`: the slots before `i` are served, the later ones
wait as they did (60_exceptions.md R166). -/
structure ScannedTo (s : State) (i : Fin 9) (t : State) : Prop where
  phase : t.phase = .scan i
  slots : t.slots = s.slots
  en : t.en = s.en
  waiting : ∀ j : Fin 8, i ≤ j.castSucc → (s.slot j).valid = true →
    t.pending (s.slot j).chan.toNat = s.pending (s.slot j).chan.toNat
  served : ∀ (j : Fin 8) (r : Record), j.castSucc < i → hit s j → s.record? (s.slot j).handle = some r →
    t.pending (s.slot j).chan.toNat = false ∧ t.record? (s.slot j).handle = some { r with busy := false }
  kept : ∀ h, (∀ j : Fin 8, j.castSucc < i → hit s j → (s.slot j).handle ≠ h) → t.record? h = s.record? h

namespace ScannedTo

variable {s t u : State} {k : Fin 8}

/-- The entry step has examined no slot (60_exceptions.md R164). -/
theorem enter (hp : s.phase = .idle) (hl : s.line = true) : ScannedTo s 0 (dispatcherTurn s) := by
  have he : dispatcherTurn s = s.popSched.enterDispatch := by
    simp only [dispatcherTurn, dispatcherStep, State.popSched_phase, hp, State.popSched_line, hl, if_true]
  rw [he]
  exact ⟨rfl, rfl, rfl, fun _ _ _ => rfl, fun j _ hj => absurd hj (Fin.not_lt_zero _), fun _ _ => rfl⟩

/-- The slot about to be examined is hit iff it was at the start: no slot before it has its channel. -/
theorem hit_iff (h : ScannedTo s k.castSucc t) : hit t k ↔ hit s k := by
  unfold hit
  rw [State.slot_congr h.slots, State.enabled, h.en]
  refine and_congr_right fun hv => ?_
  rw [h.waiting k le_rfl hv]
  rfl

/-- The record of a valid slot about to be examined is as it was: no slot before it has its handle. -/
theorem record?_eq (h : ScannedTo s k.castSucc t) (hd : s.SlotsDistinct) (hv : (s.slot k).valid = true) :
    t.record? (s.slot k).handle = s.record? (s.slot k).handle := by
  refine h.kept _ fun j hj ⟨hjv, _⟩ => ?_
  obtain ⟨-, hne⟩ := hd j k (Fin.castSucc_lt_castSucc_iff.mp hj).ne hjv hv
  exact hne

/-- A scan step past a slot that is not served, for want of a hit or of a live record. -/
theorem pass (h : ScannedTo s k.castSucc t) (hk : ∀ r, hit s k → s.record? (s.slot k).handle ≠ some r)
    (hphase : u.phase = .scan k.succ) (hslots : u.slots = t.slots) (hen : u.en = t.en) (hpend : u.pend = t.pend)
    (hstore : u.store = t.store) : ScannedTo s k.succ u := by
  have hpending (d : Nat) : u.pending d = t.pending d := by rw [State.pending, hpend]; rfl
  have hrecord := State.record?_congr hstore
  refine ⟨hphase, hslots.trans h.slots, hen.trans h.en, fun j hj hv => ?_, fun j r hj hh hr => ?_, fun w hw => ?_⟩
  · rw [hpending]
    exact h.waiting j (Fin.castSucc_lt_succ.le.trans hj) hv
  · obtain hjk | rfl := (Fin.castSucc_lt_succ_iff.mp hj).lt_or_eq
    · rw [hpending, hrecord]
      exact h.served j r (Fin.castSucc_lt_castSucc_iff.mpr hjk) hh hr
    · exact absurd hr (hk r hh)
  · rw [hrecord]
    exact h.kept w fun j hj => hw j (hj.trans Fin.castSucc_lt_succ)

/-- A scan step that serves the slot (60_exceptions.md R165). -/
theorem serve (h : ScannedTo s k.castSucc t) (hd : s.SlotsDistinct) (hk : hit s k) :
    ScannedTo s k.succ ((t.serve k).withPhase (.scan k.succ)) := by
  have hslot := State.slot_congr h.slots
  have hpending (d : Nat) : ((t.serve k).withPhase (.scan k.succ)).pending d =
      (t.pending d && d != (s.slot k).chan.toNat) := by
    rw [← hslot]
    exact State.pending_serve (h.hit_iff.mpr hk) d
  have hother {w : Word} (hw : w ≠ (s.slot k).handle) :
      ((t.serve k).withPhase (.scan k.succ)).record? w = t.record? w := by
    rw [← hslot] at hw
    exact State.record?_serve_other hw
  have hkv : (s.slot k).valid = true := hk.1
  refine ⟨rfl, h.slots, h.en, fun j hj hv => ?_, fun j r hj hh hr => ?_, fun w hw => ?_⟩
  · obtain ⟨hchan, -⟩ := hd j k (Fin.succ_le_castSucc_iff.mp hj).ne' hv hkv
    rw [hpending, h.waiting j (Fin.castSucc_lt_succ.le.trans hj) hv]
    simpa [← BitVec.toNat_inj] using fun _ => hchan
  · obtain hjk | rfl := (Fin.castSucc_lt_succ_iff.mp hj).lt_or_eq
    · obtain ⟨hpend, hrec⟩ := h.served j r (Fin.castSucc_lt_castSucc_iff.mpr hjk) hh hr
      obtain ⟨-, hne⟩ := hd j k hjk.ne hh.1 hkv
      exact ⟨by rw [hpending, hpend, Bool.false_and], (hother hne).trans hrec⟩
    · refine ⟨by simp [hpending], ?_⟩
      have hlive := (h.record?_eq hd hkv).trans hr
      rw [← hslot] at hlive ⊢
      exact State.record?_serve_self hlive
  · rw [hother (hw k Fin.castSucc_lt_succ hk).symm]
    exact h.kept w fun j hj => hw j (hj.trans Fin.castSucc_lt_succ)

/-- One turn examines one slot, where no registered record has a callback. -/
theorem turn (h : ScannedTo s k.castSucc t) (hd : s.SlotsDistinct)
    (hcb : ∀ j r, (s.slot j).valid = true → s.record? (s.slot j).handle = some r → r.cb = 0) :
    ScannedTo s k.succ (dispatcherTurn t) := by
  have hpop : ScannedTo s k.castSucc t.popSched := { h with }
  have hslot := State.slot_congr hpop.slots
  rw [dispatcherTurn, dispatcherStep_scan hpop.phase]
  by_cases hk : hit s k
  · have hkt := hpop.hit_iff.mpr hk
    have hrec := hpop.record?_eq hd hk.1
    cases hr : s.record? (s.slot k).handle with
    | none =>
      rw [hr, ← hslot] at hrec
      rw [scanStep_dangling hkt hrec]
      exact hpop.pass (by simp [hr]) (by simp) (by simp) (by simp) (by simp) (by simp)
    | some r =>
      rw [hr, ← hslot] at hrec
      rw [scanStep_serve hkt hrec (hcb k r hk.1 hr)]
      exact hpop.serve hd hk
  · rw [scanStep_miss (fun hkt => hk (hpop.hit_iff.mp hkt))]
    exact hpop.pass (fun _ hh => absurd hh hk) rfl rfl rfl rfl rfl

/-- After the entry step and `i` scan steps the slots before `i` are examined. -/
theorem iterate (hp : s.phase = .idle) (hl : s.line = true) (hd : s.SlotsDistinct)
    (hcb : ∀ j r, (s.slot j).valid = true → s.record? (s.slot j).handle = some r → r.cb = 0) (i : Fin 9) :
    ScannedTo s i (dispatcherTurn^[i.val + 1] s) := by
  induction i using Fin.induction with
  | zero => exact enter hp hl
  | succ k ih =>
    rw [Function.iterate_succ_apply']
    exact ih.turn hd hcb

end ScannedTo

/-- Settles O39: entry and eight scan steps examine every slot, and the exit step then changes the phase and the fault set
alone. -/
theorem dispatchWithoutCallbacksIsTenSteps : Obligations.DispatchWithoutCallbacksIsTenSteps := by
  intro s hp hl hsched hd hcb
  have hscan := ScannedTo.iterate hp hl hd hcb (Fin.last 8)
  rw [run_eq_dispatcherTurn_iterate 10 s hsched]
  have hexit := dispatcherTurn_exit hscan.phase
  refine ⟨_, congrArg _ ((Function.iterate_succ_apply' dispatcherTurn 9 s).trans hexit), rfl, hscan.slots, hscan.en,
    fun j r => hscan.served j r (Fin.castSucc_lt_last j), fun h hh => hscan.kept h fun j _ => hh j⟩

/-! ### Aborting a DMA channel -/

section Abort

variable {s : State} {c : Nat}

theorem hostAction_dmaAbort (hc : c < s.params.nDmaCh) (ctx : Context) :
    hostAction ctx (.dmaAbort c) s = .next (dmaAbort c s) :=
  if_pos (State.isChannel_iff.mpr hc)

theorem dmaAbort_idle (h : s.isArmed c = false) : dmaAbort c s = s := by
  simp [dmaAbort, h]

/-- An abort of an armed channel disarms it and raises its completion iff `abortRaises` says so; only the draw counter
changes beside (60_exceptions.md R187). -/
theorem dmaAbort_armed (h : s.isArmed c = true) :
    ∃ n, dmaAbort c s =
      ((s.setArmed c false).setPending c (s.pending c || s.abortRaises)).withDraws n := by
  unfold dmaAbort
  rw [if_pos h]
  cases s.abortRaises with
  | true => simpa using State.useDraw_eq ((s.setArmed c false).setPending c true)
  | false =>
    obtain ⟨n, hn⟩ := (s.setArmed c false).useDraw_eq
    rw [Bool.or_false]
    exact ⟨n, hn.trans (congrArg (State.withDraws · n) (State.setPending_self rfl).symm)⟩

end Abort

/-- Settles O41: what an abort of an armed channel raises is the configured value, or the draw. -/
theorem dmaAbortRaisesAsConfigured : Obligations.DmaAbortRaisesAsConfigured := by
  intro s c ctx hwf hc
  have h32 := Params.lt_32_of_wellFormed hwf hc
  rw [hostAction_dmaAbort hc]
  refine ⟨fun h => congrArg _ (dmaAbort_idle h), fun h => ?_⟩
  obtain ⟨n, hn⟩ := dmaAbort_armed h
  refine ⟨_, s.abortRaises, congrArg _ hn, rfl, getLsbD_writeBit_false h32 s.armed, fun d => ?_,
    fun hnever => by simp [State.abortRaises, hnever], fun halways => by simp [State.abortRaises, halways]⟩
  refine (getLsbD_writeBit ..).trans ?_
  by_cases hd : d = c
  · simp [hd, h32]
  · simp [hd, State.setArmed, State.pending]

end Sys2Proof.Machine
end

section
/-! SUPPORT. Proofs of the statements about the agents' steps: whose step is next and what it runs (20_memory.md), the
agents whose step is not enabled, the system reset, and what every step keeps (10_state.md). -/

namespace Sys2Proof.Machine

open Sys2Proof.Claims

/-! ### The next agent -/

theorem State.nextAgent_cons {s : State} {a : Agent} {rest : List Agent} (h : s.sched = a :: rest) :
    s.nextAgent = a := by
  simp only [State.nextAgent, h]

theorem State.nextAgent_nil {s : State} (h : s.sched = []) : s.nextAgent = s.defaultAgent := by
  simp only [State.nextAgent, h]

/-- An action that is next is what the step runs (log entries 1, 2). -/
theorem step_of_acts {s : State} {ctx : Context} {a : HostAction} (h : acts s ctx a) :
    step s = hostAction ctx a (taken s ctx) := by
  obtain ⟨hnext, hctx, haction⟩ := h
  exact step_host hnext hctx haction

/-- Settles O5: by the schedule's first entry, or by the default agent where it has none. -/
theorem stepRunsTheNextAgent : Obligations.StepRunsTheNextAgent := by
  refine ⟨fun _ => rfl, fun _ _ _ => step_of_acts, fun _ _ _ => State.nextAgent_cons, fun s hsched hp hl => ?_,
    fun s k hsched hp => ?_⟩
  · simp only [State.nextAgent_nil hsched, State.defaultAgent, hp, hl, if_true]
  · simp only [State.nextAgent_nil hsched, State.defaultAgent, hp]

/-! ### A command as a step -/

/-- Settles O6: the action taken is a proper write to CMD. -/
theorem stepRunsDecodedCommand : Obligations.StepRunsDecodedCommand := by
  intro s ctx w i ha hw
  obtain ⟨hcmd, -, -⟩ := accessSideEffects
  exact (step_of_acts ha).trans (hcmd _ ctx w i hw)

theorem decodeWord_of_decodeTableWord {n w : Nat} {i : Instr} (h : decodeTableWord n w = some i) :
    decodeWord (tableWord n w) = .ok i := by
  have hbytes := decodeBytes_wordBytes (tableWord n w) []
  rw [List.append_nil] at hbytes
  rw [decodeTableWord, hbytes] at h
  cases hd : decodeWord (tableWord n w) with
  | ok j =>
    rw [hd] at h
    exact congrArg Except.ok (Option.some.inj h)
  | error e =>
    rw [hd] at h
    cases h

/-- The phase in which a placed command is issued has the context it is issued in (log entry 3). -/
theorem Phase.context_fetchPhase (p : Phase) : p.fetchPhase.context? = some p.fetchContext := by
  cases p <;> rfl

/-- The write of a placed command is the next action (log entry 3). -/
theorem placeCommand_acts (s : State) (w : Word) :
    acts (s.placeCommand w) s.phase.fetchContext (.write 0x00 4 w) := by
  refine ⟨rfl, Phase.context_fetchPhase s.phase, ?_⟩
  simp only [State.placeCommand, State.withSched_flows, State.withFlow_flows, Banked.get_set_same, List.head?_cons]

/-- Taking the placed write off again leaves the phase it is issued in (log entry 3). -/
theorem taken_placeCommand (s : State) (w : Word) :
    taken (s.placeCommand w) s.phase.fetchContext = { s with phase := s.phase.fetchPhase } := by
  unfold State.placeCommand
  cases s.phase.fetchContext <;> rfl

/-- Settles O7: the placed write is a command's, and is all that was placed. -/
theorem placedCommandRunsNext : Obligations.PlacedCommandRunsNext := by
  intro s w i hw
  rw [← taken_placeCommand s (tableWord 32 w)]
  exact stepRunsDecodedCommand _ _ _ i (placeCommand_acts s _) (decodeWord_of_decodeTableWord hw)

theorem command_scan {s : State} {k : Fin 9} (hp : s.phase = .scan k) (i : Instr) (body : Context → State) :
    command i s body = .refused .noHostContext := by
  simp only [command, hp, Phase.context_scan]

/-- Settles O22: a command asks the phase for its context before anything else. -/
theorem commandsCompleteInEveryHostContext : Obligations.CommandsCompleteInEveryHostContext := by
  refine fun i s => ⟨fun ctx hctx => exec_completes hctx i, fun k hp => ?_⟩
  cases i <;> exact command_scan hp _ _

/-! ### Steps that are not enabled, and the entry step -/

theorem agentStep_host_disabled {s : State} {ctx : Context} (h : s.phase.context? ≠ some ctx) :
    agentStep (.host ctx) s = .next s :=
  if_neg h

theorem agentStep_host_main_disabled {s : State} (h : s.phase ≠ .idle) : agentStep (.host .main) s = .next s :=
  agentStep_host_disabled (mt Phase.context_eq_main.mp h)

theorem agentStep_host_irq_disabled {s : State} (h : ∀ i, s.phase ≠ .inCallback i) :
    agentStep (.host .irq) s = .next s :=
  agentStep_host_disabled fun hctx =>
    let ⟨i, hi⟩ := Phase.context_eq_irq.mp hctx
    h i hi

theorem dispatcherStep_entry {s : State} (hp : s.phase = .idle) (hl : s.line = true) :
    dispatcherStep s = s.enterDispatch := by
  simp only [dispatcherStep, hp, hl, if_true]

theorem dispatcherStep_idle {s : State} (hp : s.phase = .idle) (hl : s.line = false) : dispatcherStep s = s := by
  simp only [dispatcherStep, hp, hl, Bool.false_eq_true, if_false]

theorem dispatcherStep_inCallback {s : State} {i : Fin 8} (hp : s.phase = .inCallback i) : dispatcherStep s = s := by
  simp only [dispatcherStep, hp]

theorem dmaComplete_disabled {s : State} {c : Nat} (h : s.isArmed c = false ∨ s.params.nDmaCh ≤ c) :
    dmaComplete c s = s := by
  refine if_neg fun hen => ?_
  obtain ⟨hc, ha⟩ := (Bool.and_eq_true ..).mp hen
  obtain hidle | hout := h
  · exact Bool.false_ne_true (hidle.symm.trans ha)
  · exact hout.not_gt (State.isChannel_iff.mp hc)

/-- Settles O34: the entry step leaves Idle, so it changes something. -/
theorem entryStepOnlyMovesThePhase : Obligations.EntryStepOnlyMovesThePhase := by
  have hentry (s : State) (hp : s.phase = .idle) (hl : s.line = true) :
      agentStep .dispatcher s = .next { s with phase := .scan 0 } := congrArg _ (dispatcherStep_entry hp hl)
  refine ⟨hentry, fun s hp => ⟨fun hne => ?_, fun hl hsame => ?_⟩, fun s => agentStep_host_main_disabled⟩
  · by_contra hl
    exact hne (congrArg _ (dispatcherStep_idle hp (Bool.eq_false_iff.mpr hl)))
  · rw [hentry s hp hl] at hsame
    have hphase : Phase.scan 0 = s.phase := congrArg State.phase (Host.Outcome.next.inj hsame)
    rw [hp] at hphase
    cases hphase

/-- Settles O35: one lemma per agent. -/
theorem disabledAgentsChangeNothing : Obligations.DisabledAgentsChangeNothing := by
  refine fun s => ⟨agentStep_host_main_disabled, agentStep_host_irq_disabled, fun h => ?_,
    fun c h => congrArg _ (dmaComplete_disabled h)⟩
  obtain ⟨i, hp⟩ | ⟨hp, hl⟩ := h
  · exact congrArg _ (dispatcherStep_inCallback hp)
  · exact congrArg _ (dispatcherStep_idle hp hl)

/-! ### Reset, and what every step keeps -/

/-- Settles O45: the reset is `State.reset` with the model's own fields, whatever the phase was. -/
theorem platformResetFromAnyPhase : Obligations.PlatformResetFromAnyPhase :=
  fun s => ⟨platformReset s, rfl, rfl, rfl, rfl, rfl, rfl, rfl, rfl, rfl, rfl, rfl, rfl, rfl, rfl⟩

/-- Settles O49: the only step that takes a record out is a reset. -/
theorem faultsOnlyGrow : Obligations.FaultsOnlyGrow := by
  refine ⟨rfl, fun s t hs hnp g hg => ?_⟩
  obtain hf | ⟨f, hf⟩ | ⟨ha, -⟩ := step_faults hs
  · exact hf ▸ hg
  · exact hf ▸ State.mem_recordFault.mpr (Or.inl hg)
  · exact absurd ha hnp

/-- Settles O50: by the effects of a step. -/
theorem paramsNeverChange : Obligations.ParamsNeverChange := fun _ _ => step_params_eq

end Sys2Proof.Machine
end

section
/-! SUPPORT. Proofs of the statements about the DMA environment (60_exceptions.md R186, R187): arming, the completion event,
and the draw an abort takes under EITHER. -/

namespace Sys2Proof.Machine

open Sys2Proof.Claims

section Dma

variable {s : State} {c : Nat}

theorem hostAction_dmaArm (hc : c < s.params.nDmaCh) (ctx : Context) :
    hostAction ctx (.dmaArm c) s = .next (dmaArm c s) :=
  if_pos (State.isChannel_iff.mpr hc)

theorem dmaArm_idle (h : s.isArmed c = false) : dmaArm c s = s.setArmed c true :=
  if_neg (Bool.eq_false_iff.mp h)

theorem dmaArm_armed (h : s.isArmed c = true) : dmaArm c s = s.recordFault (.dmaContract c) :=
  if_pos h

theorem dmaComplete_armed (hc : c < s.params.nDmaCh) (h : s.isArmed c = true) :
    dmaComplete c s = (s.setArmed c false).setPending c true :=
  if_pos ((Bool.and_eq_true ..).mpr ⟨State.isChannel_iff.mpr hc, h⟩)

theorem State.abortRaises_either (he : s.params.abortCompletion = .either) :
    s.abortRaises = Config.abortDraw s.draws := by
  simp only [State.abortRaises, he]

theorem State.draws_useDraw_either (he : s.params.abortCompletion = .either) : s.useDraw.draws = s.draws + 1 := by
  simp only [State.useDraw, he, State.withDraws_draws]

/-- Under EITHER every abort of an armed channel uses a draw up, raised or not (log entry 5). -/
theorem dmaAbort_draws_either (h : s.isArmed c = true) (he : s.params.abortCompletion = .either) :
    (dmaAbort c s).draws = s.draws + 1 := by
  rw [dmaAbort, if_pos h]
  split
  · exact State.draws_useDraw_either (s := (s.setArmed c false).setPending c true) he
  · exact State.draws_useDraw_either (s := s.setArmed c false) he

/-- An abort of an armed channel adds what it raises to the channel's pending bit (60_exceptions.md R187). -/
theorem pending_dmaAbort (hc : c < 32) (h : s.isArmed c = true) :
    (dmaAbort c s).pending c = (s.pending c || s.abortRaises) := by
  obtain ⟨n, hn⟩ := dmaAbort_armed h
  have hbit := State.pending_setPending (s.setArmed c false) c c (s.pending c || s.abortRaises)
  rw [if_pos ⟨rfl, hc⟩] at hbit
  rw [hn]
  exact hbit

end Dma

/-- Settles O40: arming and completing write the bits of one channel, and a completion clears the bit that enabled it. -/
theorem dmaArmAndCompletion : Obligations.DmaArmAndCompletion := by
  intro s c hwf hc
  have h32 := Params.lt_32_of_wellFormed hwf hc
  have hcomplete (ha : s.isArmed c = true) :
      agentStep (.dma c) s = .next ((s.setArmed c false).setPending c true) := congrArg _ (dmaComplete_armed hc ha)
  refine ⟨fun ctx ha => ?_, fun ctx ha => ?_, fun ha => ⟨_, hcomplete ha, rfl, ?_, ?_⟩,
    ⟨fun hne => ?_, fun ha hsame => ?_⟩⟩
  · exact ⟨_, (hostAction_dmaArm hc ctx).trans (congrArg _ (dmaArm_idle ha)), rfl, getLsbD_writeBit_true h32 s.armed⟩
  · exact ⟨_, (hostAction_dmaArm hc ctx).trans (congrArg _ (dmaArm_armed ha)), recordsOnly_recordFault ..⟩
  · exact getLsbD_writeBit_false h32 s.armed
  · exact getLsbD_writeBit_true h32 s.pend
  · by_contra ha
    exact hne (congrArg _ (dmaComplete_disabled (Or.inl (Bool.eq_false_iff.mpr ha))))
  · rw [hcomplete ha] at hsame
    have hbit : (writeBit s.armed c false).getLsbD c = true :=
      (congrArg (State.isArmed · c) (Host.Outcome.next.inj hsame)).trans ha
    simp [getLsbD_writeBit_false h32] at hbit

/-- Settles O42: an abort of an armed channel takes the draw at the counter; one of an idle channel does nothing. -/
theorem eitherAbortTakesAFreshDraw : Obligations.EitherAbortTakesAFreshDraw := by
  intro s t c ctx hwf hc he h
  have h32 := Params.lt_32_of_wellFormed hwf hc
  rw [hostAction_dmaAbort hc] at h
  obtain rfl := Host.Outcome.next.inj h
  refine ⟨fun ha => ⟨dmaAbort_draws_either ha he, ?_⟩, fun ha => congrArg State.draws (dmaAbort_idle ha)⟩
  rw [pending_dmaAbort h32 ha, State.abortRaises_either he]

end Sys2Proof.Machine
end

section
/-! SUPPORT. Proofs of the statements about what a host flow does outside the window: reading its records (20_memory.md R50,
R63) and the engine operations (30_encoding.md R79). -/

namespace Sys2Proof.Machine

open Sys2Proof.Claims

/-! ### Reading records -/

theorem hostReadRecord_dangling {s : State} {h : Word} (hr : s.record? h = none) (ctx : Context) (f : RecordField) :
    hostReadRecord s ctx h f = (s.recordFault (.danglingHandle h)).returnData ctx 0 := by
  simp only [hostReadRecord, hr]

/-- A read of a live record returns its field and writes the flow alone (20_memory.md R63). -/
theorem hostAction_readRecord {s : State} {h : Word} {r : Record} (hr : s.record? h = some r) (ctx : Context)
    (f : RecordField) : hostAction ctx (.readRecord h f) s = .next (returned s ctx (r.field f)) :=
  congrArg _ (hostReadRecord_live hr f)

/-- Settles O59: each field as a word, the dangling read, and the record a served hit leaves. -/
theorem hostReadsItsRecords : Obligations.HostReadsItsRecords := by
  refine ⟨fun s ctx h r hr => ?_, fun s ctx h f hr => ?_, fun s t k r ctx hp hh hr hstep => ?_⟩
  · refine ⟨?_, ?_, ?_, hostAction_readRecord hr ctx .cb, hostAction_readRecord hr ctx .ctx⟩
    · rw [hostAction_readRecord hr, Record.field_dir]
    · rw [hostAction_readRecord hr, Record.field, BitVec.ofNat_toNat]
    · rw [hostAction_readRecord hr, Record.field_busy]
  · refine ⟨_, congrArg Host.Outcome.next (hostReadRecord_dangling hr ctx f), ?_⟩
    rw [State.returnData_recordFault]
    exact recordsOnly_recordFault ..
  · obtain ⟨-, -, hserved⟩ := scanStepFollowsItsRule s k hp
    obtain ⟨u, hu, -, hrec, -⟩ := hserved r hh hr
    obtain rfl : t = u := Host.Outcome.next.inj (hstep.symm.trans hu)
    rw [hostAction_readRecord hrec, Record.field_busy]
    rfl

/-! ### The words of the engine operations -/

/-- The assembler's word of a command is `(CHAN << 8) | OP` (30_encoding.md R78). -/
theorem chanWord_eq_encode (i : Instr) : chanWord (chanOperand i) (opcode i).toNat = encode i := by
  rw [chanWord, ← encode_toNat, BitVec.ofNat_toNat, BitVec.setWidth_eq]

theorem chanWord_srcEnable (c : Byte) : chanWord c 0x08 = encode (.srcEnable c) := chanWord_eq_encode (.srcEnable c)
theorem chanWord_srcDisable (c : Byte) : chanWord c 0x09 = encode (.srcDisable c) := chanWord_eq_encode (.srcDisable c)
theorem chanWord_srcAck (c : Byte) : chanWord c 0x0A = encode (.srcAck c) := chanWord_eq_encode (.srcAck c)

/-- RESULT.STATUS is the low byte of the word read (10_state.md R24). -/
theorem resultStatus_eq (w : Word) : resultStatus w = BitVec.ofNat 8 w.toNat := by
  apply BitVec.eq_of_toNat_eq
  simp [resultStatus]

theorem resultIsOk_iff (w : Word) : resultIsOk w = true ↔ w.toNat % 256 = 0 := by
  rw [resultIsOk, beq_iff_eq, resultStatus_eq, ← BitVec.toNat_inj]
  exact Iff.rfl

/-! ### The engine operations -/

theorem runOnChannel_dangling {s : State} {h : Word} (hr : s.record? h = none) (ctx : Context)
    (body : Byte → List HostAction) : runOnChannel s ctx h body = s.recordFault (.danglingHandle h) := by
  simp only [runOnChannel, hr]

section Engine

variable {s : State} {ctx : Context} {h : Word} {r : Record}

theorem hostAction_engineInit (hr : s.record? h = some r) :
    hostAction ctx (.engineInit h) s = .next (queued s ctx (engineInitHead r.chan h)) :=
  congrArg _ (runOnChannel_live hr _)

theorem engineInitHead_unclaimed {c : Byte} (hc : c = 0xFF) : engineInitHead c h = [.giveAnswer .resourceExhausted] :=
  if_pos hc

theorem engineInitHead_claimed {c : Byte} (hc : c ≠ 0xFF) :
    engineInitHead c h = asmOnHandle .register h ++ [asmResult, .initDecides c] :=
  if_neg hc

theorem hostAction_engineAbort (hr : s.record? h = some r) :
    hostAction ctx (.engineAbort h) s = .next (queued s ctx (engineAbortBody r.chan h)) :=
  congrArg _ (runOnChannel_live hr _)

theorem hostAction_engineDeinit (hr : s.record? h = some r) :
    hostAction ctx (.engineDeinit h) s = .next (queued s ctx (engineDeinitBody r.chan h)) :=
  congrArg _ (runOnChannel_live hr _)

/-- On REGISTER's success the source is acknowledged and enabled (30_encoding.md R79). -/
theorem initDecision_ok (hok : (s.flows.get ctx).readData.toNat % 256 = 0) (c : Byte) :
    initDecision s ctx c = queued s ctx
      (asmPlain (.srcAck c) ++ asmPlain .install ++ asmPlain (.srcEnable c) ++ [.giveAnswer (.status 0x00)]) :=
  congrArg (queued s ctx) (if_pos ((resultIsOk_iff _).mpr hok))

theorem initDecision_refused (hno : (s.flows.get ctx).readData.toNat % 256 ≠ 0) (c : Byte) :
    initDecision s ctx c = queued s ctx
      [.releaseChannel c.toNat, .giveAnswer (.status (resultStatus (s.flows.get ctx).readData))] :=
  congrArg (queued s ctx) (if_neg (mt (resultIsOk_iff _).mp hno))

theorem hostAction_engineStart_empty :
    hostAction ctx (.engineStart h 0) s = .next (queued s ctx [.giveAnswer .noValue]) := rfl

theorem hostAction_engineStart {len : Nat} (hlen : len ≠ 0) :
    hostAction ctx (.engineStart h len) s =
      .next (queued s ctx (asmOnHandle .busySet h ++ [asmResult, .startDecides h])) :=
  congrArg (fun l => Host.Outcome.next (queued s ctx l)) (if_neg hlen)

/-- On BUSY_SET's success the transfer is armed on the record's channel (30_encoding.md R79). -/
theorem startDecision_ok (hok : (s.flows.get ctx).readData.toNat % 256 = 0) (hr : s.record? h = some r) :
    startDecision s ctx h = queued s ctx (engineStartArms r.chan) :=
  (if_pos ((resultIsOk_iff _).mpr hok)).trans (runOnChannel_live hr _)

theorem startDecision_refused (hno : (s.flows.get ctx).readData.toNat % 256 ≠ 0) :
    startDecision s ctx h = queued s ctx (engineStartRefused (s.flows.get ctx).readData) :=
  if_neg (mt (resultIsOk_iff _).mp hno)

end Engine

/-- Settles O60: each operation's statements, on the record's channel, and both branches of each decision. -/
theorem engineSequencesFollowTheirRule : Obligations.EngineSequencesFollowTheirRule := by
  simp only [Obligations.EngineSequencesFollowTheirRule, chanWord_srcEnable, chanWord_srcDisable, chanWord_srcAck,
    ← resultStatus_eq]
  refine ⟨fun s ctx h hr a ha => ?_, fun s ctx h r hr => ?_, fun s ctx c => ?_, fun s ctx h len => ?_,
    fun s ctx c v => ⟨rfl, rfl⟩⟩
  · refine ⟨s.recordFault (.danglingHandle h), ?_, recordsOnly_recordFault ..⟩
    fin_cases ha <;> exact congrArg _ (runOnChannel_dangling hr ctx _)
  · refine ⟨fun hc => ?_, fun hc => ?_, hostAction_engineAbort hr, hostAction_engineDeinit hr⟩
    · rw [hostAction_engineInit hr, engineInitHead_unclaimed hc]
    · rw [hostAction_engineInit hr, engineInitHead_claimed hc]
      rfl
  · exact ⟨fun hok => congrArg _ (initDecision_ok hok c), fun hno => congrArg _ (initDecision_refused hno c)⟩
  · exact ⟨fun hlen => hlen ▸ hostAction_engineStart_empty, hostAction_engineStart,
      fun hno => congrArg _ (startDecision_refused hno), fun r hok hr => congrArg _ (startDecision_ok hok hr)⟩

end Sys2Proof.Machine
end
